-- ==== Sys2Proof/Word.lean ====
section
/-! DEFINITION. The word types of the machine and the three data widths of the Vector Extension
(spec rules R10, R11, R17, R66). -/

namespace Sys2Proof

/-- A 32-bit word: an instruction, a scalar register, a control register, an address (R30, R32, R62). -/
abbrev Word := BitVec 32

/-- One byte of main memory (R60). -/
abbrev Byte := BitVec 8

/-- A register element or a local memory word as it is stored. The VP width `W` is a parameter of
the instance (8, 16 or 32 bits, R6), so an element of `W` bits is held in the low `W` bits of a
32-bit container whose other bits are 0; arithmetic is done on `BitVec W` (R11, R20). -/
abbrev Elem := BitVec 32

/-- The data widths of the source, `.b`, `.h`, `.w` (R17, R66); also the legal VP widths (R6). -/
inductive Width where
  | b
  | h
  | w
deriving DecidableEq, Repr

/-- Number of bytes of a data width: "1B Byte", "2B Halfword", "4B Word" (R66). -/
def Width.bytes : Width → Nat
  | .b => 1
  | .h => 2
  | .w => 4

/-- Number of bits of a data width (R17). -/
def Width.bits : Width → Nat
  | .b => 8
  | .h => 16
  | .w => 32

end Sys2Proof
end

