-- ==== Sys2Proof/Config.lean ====
section
/-! DEFINITION. What an instance of the architecture fixes (R6, R9; 92_eei_decisions.md sections 2
and 3) and the free values of the model (93_implementation_defined.md section 2). Every parameter
the spec leaves open is a field of `Config`; `State` carries one `Config`, so a statement about
every state is a statement about every instance. -/

namespace Sys2Proof

/-- A bit range of the instruction word: bits `lo + width - 1` down to `lo` (R10, R94). -/
structure BitField where
  lo : Nat
  width : Nat
deriving DecidableEq, Repr

/-- The configuration record `FieldLayout` of R93: the place of every field of R94. The widths are
the source's, the positions are open (D1). -/
structure FieldLayout where
  op : BitField
  func : BitField
  opx : BitField
  mask : BitField
  vd : BitField
  va : BitField
  vb : BitField
  /-- `RS` of the SS-type (R96). -/
  rsSrc : BitField
  /-- `RS` of the SD-type (R97). -/
  rsDst : BitField
  vbase : BitField
  vinc : BitField
  vstride : BitField
  voff : BitField
deriving DecidableEq, Repr

/-- The default layout of R93, R94 and R96 to R101 (decision D1). DESIGN CHOICE, unsafe: log entry 7. -/
def FieldLayout.r93 : FieldLayout where
  op := { lo := 0, width := 6 }
  func := { lo := 6, width := 6 }
  opx := { lo := 12, width := 1 }
  mask := { lo := 13, width := 1 }
  vd := { lo := 14, width := 6 }
  va := { lo := 26, width := 6 }
  vb := { lo := 20, width := 6 }
  rsSrc := { lo := 20, width := 5 }
  rsDst := { lo := 14, width := 5 }
  vbase := { lo := 20, width := 4 }
  vinc := { lo := 29, width := 3 }
  vstride := { lo := 26, width := 3 }
  voff := { lo := 26, width := 6 }

/-- `DivRound` of R131: which way a signed quotient that is not an integer is rounded. -/
inductive DivRounding where
  /-- The default: toward zero. -/
  | towardZero
  /-- Not settled: the floor or the ceiling of the exact quotient, whichever
  `Config.quotientRoundsUp` says, about which nothing is known. -/
  | unstated
deriving DecidableEq, Repr

/-- `FxRound` of R181: an integer between the floor and the ceiling of `z / 2^n`. -/
inductive FxRounding where
  /-- Not settled: the floor or the ceiling, whichever `Config.fxRoundsUp` says. -/
  | unstated
  /-- Round half up, the function of test configuration TC1F (92_eei_decisions.md section 3). -/
  | halfUp
deriving DecidableEq, Repr

/-- One range of byte addresses that plain memory backs: a piece of `MemMap` (R61). -/
structure MemRegion where
  base : Nat
  size : Nat
deriving DecidableEq, Repr

/-- The parameters of an instance: source Table 1 (R6) and those the spec adds (R9). -/
structure Config where
  /-- `NLane`, number of vector lanes. -/
  nLane : Nat
  /-- `logMVL`; `MVL` is a power of two (D5), so its logarithm is the parameter. -/
  logMvl : Nat
  /-- `VPUW`, the VP width `W`. -/
  vpuw : Width
  /-- `MemWidth`, the memory interface width in bits; no rule depends on it (R6). -/
  memWidth : Nat
  /-- `MemMinWidth` (R67). -/
  memMinWidth : Width
  /-- `MACL`, MAC chain length; 0 is no MAC. -/
  macl : Nat
  /-- `LMemN`, local memory words of a lane; 0 is no local memory. -/
  lMemN : Nat
  lMemShare : Bool
  vmult : Bool
  vupshift : Bool
  vmanip : Bool
  /-- `FieldLayout` (R93). -/
  layout : FieldLayout := FieldLayout.r93
  /-- `NAcc`, number of distributed accumulators (R38). -/
  nAcc : Nat
  /-- `AccW`, width in bits of an accumulator (R38). -/
  accW : Nat
  /-- `accmap`: entry `i` is the accumulator that VP `i` feeds (R38). -/
  accmap : List Nat
  /-- `ACCncopy`, the value of `$vc28` (R35). -/
  accNcopy : Nat
  /-- `FixedPoint`, default Off (R180). -/
  fixedPoint : Bool := false
  /-- `FxRound` (R181). -/
  fxRound : FxRounding := .unstated
  /-- `SatWidthField`: the width the decoder fills into `vsat`, `vsatu`, `vsatsu` (R181). The spec
  leaves it open, so it has no default: an instance names it. -/
  satWidth : Width
  /-- `DivRound`, default toward zero (R131). -/
  divRound : DivRounding := .towardZero
  /-- `AbsDiffSigned`, default true (R131). -/
  absDiffSigned : Bool := true
  /-- `MemMap` (R61, D39). -/
  memMap : List MemRegion
deriving DecidableEq, Repr

/-- `MVL`, the number of elements of every vector and flag register (R6, R20, R23). -/
def Config.mvl (c : Config) : Nat := 2 ^ c.logMvl

/-- `W`, the VP width in bits (R11). -/
def Config.w (c : Config) : Nat := c.vpuw.bits

/-- Test configuration TC1 of 92_eei_decisions.md section 3 (D37). That section gives `SatWidthField`
for TC1F alone: its value here is the model's. DESIGN CHOICE: log entry 38. -/
def Config.tc1 : Config where
  nLane := 4
  logMvl := 4
  vpuw := .h
  memWidth := 32
  memMinWidth := .b
  macl := 1
  lMemN := 64
  lMemShare := false
  vmult := true
  vupshift := true
  vmanip := true
  nAcc := 1
  accW := 40
  accmap := List.replicate 16 0
  accNcopy := 1
  satWidth := .b
  memMap := [{ base := 0, size := 65536 }]

/-- Test configuration TC2: two chains of two accumulators, shared local memory; `SatWidthField` as the
model has it in TC1. DESIGN CHOICE: log entry 38. -/
def Config.tc2 : Config :=
  { Config.tc1 with
    macl := 2
    lMemShare := true
    nAcc := 4
    accmap := (List.range 16).map (· % 4)
    accNcopy := 2 }

/-- Test configuration TC1F: TC1 with the fixed-point extension, round half up, and `SatWidthField`
giving `.b` (92_eei_decisions.md section 3). -/
def Config.tc1f : Config :=
  { Config.tc1 with fixedPoint := true, fxRound := .halfUp, satWidth := .b }

/-- The places where the spec says `draw`: a value the model may assume nothing of but its width
(R13; 93_implementation_defined.md section 2), and the choices of the scalar-core agent (R300). -/
inductive DrawKind where
  /-- `DivZero` (R142, R143). -/
  | divZero
  /-- `DivOvf` (R142). -/
  | divOvf
  /-- `AbsMin` (R132). -/
  | absMin
  /-- `ShiftOver` (R144, R173, R174). -/
  | shiftOver
  /-- `FlagSideEffect` for `$vf16` (R27). -/
  | overflowFlag
  /-- `FlagSideEffect` for `$vf17` (R27). -/
  | saturateFlag
  /-- `FxShiftOver` (R181). -/
  | fxShiftOver
  /-- `FlagLoadPad` (R225). -/
  | flagLoadPad
  /-- `FlagStorePad` (R226). -/
  | flagStorePad
  /-- `FlagScanTail` (R275). -/
  | flagScanTail
  /-- Accumulator data at first clearing (R166). -/
  | accUnwritten
  /-- The order of the element stores of `vstxu`, as sorting keys (R71, R221). -/
  | storeOrder
  /-- The value the scalar core leaves in a scalar register (R300). -/
  | scalarReg
  /-- The `pc` the scalar core leaves (R300). -/
  | scalarPc
deriving DecidableEq, Repr

/-- FREE VALUE. `Config.draw k n i` is the value drawn for the purpose `k`, at the `n`-th use, for
element `i`; a user of fewer than 32 bits takes the low bits. It has no body: a claim about the
machine holds whatever the values are. `State.drawCount` supplies `n` and advances with every
instruction that may draw, so that a draw is fresh at each use. -/
opaque Config.draw : DrawKind → Nat → Nat → BitVec 32

/-- FREE VALUE. The bytes the scalar core stores in its `n`-th step, oldest first (R300). -/
opaque Config.scalarStores : Nat → List (Nat × BitVec 8)

/-- FREE VALUE. Under `DivRounding.unstated`: is the quotient of these two rounded up (R131)? -/
opaque Config.quotientRoundsUp : Int → Int → Bool

/-- FREE VALUE. Under `FxRounding.unstated`: is this `z / 2^n` rounded up (R181)? -/
opaque Config.fxRoundsUp : Int → Nat → Bool

end Sys2Proof
end

