-- ==== Sys2Proof/Syntax.lean ====
section
/-! DEFINITION. The instructions: one constructor for every row of spec/opcode_table.json, in the
table's order, its operands in the order of the assembler syntax of R122 (the mask selector `.1`
first). A constructor's name is the row's mnemonic, the form `.vv`, `.vs`, `.sv` or the width `.b`,
`.h`, `.w` as its last capital letters. -/

namespace Sys2Proof

/-- A vector register number, `vr0` to `vr63` (R20). -/
abbrev VReg := Fin 64

/-- A flag register number, `$vf0` to `$vf31` (R23, R29). -/
abbrev FReg := Fin 32

/-- A control register number, `$vc0` to `$vc63` (R32). -/
abbrev CReg := Fin 64

/-- A scalar register number, `r0` to `r31` (R30). -/
abbrev SReg := Fin 32

/-- Which of `vbase0` to `vbase15` (R36). -/
abbrev VBase := Fin 16

/-- Which of `vinc0` to `vinc7` (R36). -/
abbrev VInc := Fin 8

/-- Which of `vstride0` to `vstride7` (R36). -/
abbrev VStride := Fin 8

/-- The `MASK` bit: which flag register masks the instruction (R94, R28). -/
inductive MaskSel where
  | vfmask0
  | vfmask1
deriving DecidableEq, Repr

/-- The instructions of the Vector Extension (R4, R103 to R108, R122). Of a store the register
`va` holds the data (R98); `vo` is the offset register `vOff`; `n` of the saturate instructions is
the width of the qualifier `.b`, `.h`, `.w` (R181). -/
inductive Instr where
  -- Vector register instructions, opcode 0x3D, OPX 0 (R103)
  | vaddVV (m : MaskSel) (vd va vb : VReg)
  | vsubVV (m : MaskSel) (vd va vb : VReg)
  | vmacVV (m : MaskSel) (va vb : VReg)
  | vandVV (m : MaskSel) (vd va vb : VReg)
  | vorVV (m : MaskSel) (vd va vb : VReg)
  | vxorVV (m : MaskSel) (vd va vb : VReg)
  | vadduVV (m : MaskSel) (vd va vb : VReg)
  | vsubuVV (m : MaskSel) (vd va vb : VReg)
  | vmacuVV (m : MaskSel) (va vb : VReg)
  | vabsdiffVV (m : MaskSel) (vd va vb : VReg)
  | vsraVV (m : MaskSel) (vd va vb : VReg)
  | vcmpeqVV (m : MaskSel) (fd : FReg) (va vb : VReg)
  | vsllVV (m : MaskSel) (vd va vb : VReg)
  | vsrlVV (m : MaskSel) (vd va vb : VReg)
  | vrotVV (m : MaskSel) (vd va vb : VReg)
  | vcmpltVV (m : MaskSel) (fd : FReg) (va vb : VReg)
  | vdivVV (m : MaskSel) (vd va vb : VReg)
  | vcmpleVV (m : MaskSel) (fd : FReg) (va vb : VReg)
  | vmergeVV (m : MaskSel) (vd va vb : VReg)
  | vcmpneqVV (m : MaskSel) (fd : FReg) (va vb : VReg)
  | vcmpltuVV (m : MaskSel) (fd : FReg) (va vb : VReg)
  | vdivuVV (m : MaskSel) (vd va vb : VReg)
  | vcmpleuVV (m : MaskSel) (fd : FReg) (va vb : VReg)
  | vmaxVV (m : MaskSel) (vd va vb : VReg)
  | vextVV (vd va : VReg)
  | vinsVV (vd va : VReg)
  | vminVV (m : MaskSel) (vd va vb : VReg)
  | vmulhiVV (m : MaskSel) (vd va vb : VReg)
  | vmulloVV (m : MaskSel) (vd va vb : VReg)
  | vmaxuVV (m : MaskSel) (vd va vb : VReg)
  | vminuVV (m : MaskSel) (vd va vb : VReg)
  | vmulhiuVV (m : MaskSel) (vd va vb : VReg)
  | vmullouVV (m : MaskSel) (vd va vb : VReg)
  | vccacc (vd : VReg)
  | vupshift (vd va : VReg)
  | vcomp (m : MaskSel) (vd va : VReg)
  | vexpand (m : MaskSel) (vd va : VReg)
  | vabsVV (m : MaskSel) (vd va : VReg)
  | vcczacc (vd : VReg)
  -- Scalar-vector instructions, opcode 0x3D, OPX 1 (R104)
  | vaddVS (m : MaskSel) (vd va : VReg) (rs : SReg)
  | vsubVS (m : MaskSel) (vd va : VReg) (rs : SReg)
  | vmacVS (m : MaskSel) (va : VReg) (rs : SReg)
  | vandVS (m : MaskSel) (vd va : VReg) (rs : SReg)
  | vorVS (m : MaskSel) (vd va : VReg) (rs : SReg)
  | vxorVS (m : MaskSel) (vd va : VReg) (rs : SReg)
  | vadduVS (m : MaskSel) (vd va : VReg) (rs : SReg)
  | vsubuVS (m : MaskSel) (vd va : VReg) (rs : SReg)
  | vmacuVS (m : MaskSel) (va : VReg) (rs : SReg)
  | vabsdiffVS (m : MaskSel) (vd va : VReg) (rs : SReg)
  | vsraVS (m : MaskSel) (vd va : VReg) (rs : SReg)
  | vcmpeqVS (m : MaskSel) (fd : FReg) (va : VReg) (rs : SReg)
  | vsllVS (m : MaskSel) (vd va : VReg) (rs : SReg)
  | vsrlVS (m : MaskSel) (vd va : VReg) (rs : SReg)
  | vrotVS (m : MaskSel) (vd va : VReg) (rs : SReg)
  | vcmpltVS (m : MaskSel) (fd : FReg) (va : VReg) (rs : SReg)
  | vdivVS (m : MaskSel) (vd va : VReg) (rs : SReg)
  | vcmpleVS (m : MaskSel) (fd : FReg) (va : VReg) (rs : SReg)
  | vmergeVS (m : MaskSel) (vd va : VReg) (rs : SReg)
  | vcmpneqVS (m : MaskSel) (fd : FReg) (va : VReg) (rs : SReg)
  | vcmpltuVS (m : MaskSel) (fd : FReg) (va : VReg) (rs : SReg)
  | vdivuVS (m : MaskSel) (vd va : VReg) (rs : SReg)
  | vcmpleuVS (m : MaskSel) (fd : FReg) (va : VReg) (rs : SReg)
  | vmaxVS (m : MaskSel) (vd va : VReg) (rs : SReg)
  | vextVS (rs : SReg) (va : VReg)
  | vinsVS (vd : VReg) (rs : SReg)
  | vminVS (m : MaskSel) (vd va : VReg) (rs : SReg)
  | vmulhiVS (m : MaskSel) (vd va : VReg) (rs : SReg)
  | vmulloVS (m : MaskSel) (vd va : VReg) (rs : SReg)
  | vmaxuVS (m : MaskSel) (vd va : VReg) (rs : SReg)
  | vextuVS (rs : SReg) (va : VReg)
  | vminuVS (m : MaskSel) (vd va : VReg) (rs : SReg)
  | vmulhiuVS (m : MaskSel) (vd va : VReg) (rs : SReg)
  | vmullouVS (m : MaskSel) (vd va : VReg) (rs : SReg)
  | vsraSV (m : MaskSel) (vd : VReg) (rs : SReg) (vb : VReg)
  | vsubSV (m : MaskSel) (vd : VReg) (rs : SReg) (vb : VReg)
  | vsllSV (m : MaskSel) (vd : VReg) (rs : SReg) (vb : VReg)
  | vsrlSV (m : MaskSel) (vd : VReg) (rs : SReg) (vb : VReg)
  | vrotSV (m : MaskSel) (vd : VReg) (rs : SReg) (vb : VReg)
  | vcmpltSV (m : MaskSel) (fd : FReg) (rs : SReg) (vb : VReg)
  | vdivSV (m : MaskSel) (vd : VReg) (rs : SReg) (vb : VReg)
  | vcmpleSV (m : MaskSel) (fd : FReg) (rs : SReg) (vb : VReg)
  | vmergeSV (m : MaskSel) (vd : VReg) (rs : SReg) (vb : VReg)
  | vsubuSV (m : MaskSel) (vd : VReg) (rs : SReg) (vb : VReg)
  | vcmpltuSV (m : MaskSel) (fd : FReg) (rs : SReg) (vb : VReg)
  | vdivuSV (m : MaskSel) (vd : VReg) (rs : SReg) (vb : VReg)
  | vcmpleuSV (m : MaskSel) (fd : FReg) (rs : SReg) (vb : VReg)
  -- Fixed point instructions, opcode 0x3E, OPX 0 (R105)
  | vsaddVV (m : MaskSel) (vd va vb : VReg)
  | vssubVV (m : MaskSel) (vd va vb : VReg)
  | vsat (n : Width) (m : MaskSel) (vd va : VReg)
  | vsrr (m : MaskSel) (vd va : VReg)
  | vsls (m : MaskSel) (vd va : VReg)
  | vxmulhiVV (m : MaskSel) (vd va vb : VReg)
  | vxmulloVV (m : MaskSel) (vd va vb : VReg)
  | vsadduVV (m : MaskSel) (vd va vb : VReg)
  | vssubuVV (m : MaskSel) (vd va vb : VReg)
  | vsatu (n : Width) (m : MaskSel) (vd va : VReg)
  | vsrru (m : MaskSel) (vd va : VReg)
  | vslsu (m : MaskSel) (vd va : VReg)
  | vxmulhiuVV (m : MaskSel) (vd va vb : VReg)
  | vxmullouVV (m : MaskSel) (vd va vb : VReg)
  | vxccacc (vd : VReg)
  | vsatsu (n : Width) (m : MaskSel) (vd va : VReg)
  | vxcczacc (vd : VReg)
  | vsaddVS (m : MaskSel) (vd va : VReg) (rs : SReg)
  | vssubVS (m : MaskSel) (vd va : VReg) (rs : SReg)
  | vxmulhiVS (m : MaskSel) (vd va : VReg) (rs : SReg)
  | vxmulloVS (m : MaskSel) (vd va : VReg) (rs : SReg)
  | vsadduVS (m : MaskSel) (vd va : VReg) (rs : SReg)
  | vssubuVS (m : MaskSel) (vd va : VReg) (rs : SReg)
  | vxmulhiuVS (m : MaskSel) (vd va : VReg) (rs : SReg)
  | vxmullouVS (m : MaskSel) (vd va : VReg) (rs : SReg)
  | vssubSV (m : MaskSel) (vd : VReg) (rs : SReg) (vb : VReg)
  | vssubuSV (m : MaskSel) (vd : VReg) (rs : SReg) (vb : VReg)
  -- Flag, transfer and miscellaneous instructions, opcode 0x3E, OPX 1 (R106)
  | vfclr (fd : FReg)
  | vfset (fd : FReg)
  | vfandVV (fd fa fb : FReg)
  | vfnorVV (fd fa fb : FReg)
  | vforVV (fd fa fb : FReg)
  | vfxorVV (fd fa fb : FReg)
  | vfff1 (rs : SReg) (fa : FReg)
  | vffl1 (rs : SReg) (fa : FReg)
  | vfsetof (fd fa : FReg)
  | vfsetbf (fd fa : FReg)
  | vfsetif (fd fa : FReg)
  | vfinsVS (fd : FReg) (rs : SReg)
  | vfandVS (fd fa : FReg) (rs : SReg)
  | vfnorVS (fd fa : FReg) (rs : SReg)
  | vforVS (fd fa : FReg) (rs : SReg)
  | vfxorVS (fd fa : FReg) (rs : SReg)
  | vmstc (vc : CReg) (rs : SReg)
  | vmcts (rs : SReg) (vc : CReg)
  -- Memory instructions, opcode 0x3F (R107)
  | vldB (m : MaskSel) (vd : VReg) (vb : VBase) (vi : VInc)
  | vstB (m : MaskSel) (va : VReg) (vb : VBase) (vi : VInc)
  | vldsB (m : MaskSel) (vd : VReg) (vb : VBase) (vs : VStride) (vi : VInc)
  | vstsB (m : MaskSel) (va : VReg) (vb : VBase) (vs : VStride) (vi : VInc)
  | vldxB (m : MaskSel) (vd vo : VReg) (vb : VBase)
  | vstxuB (m : MaskSel) (va vo : VReg) (vb : VBase)
  | vstxB (m : MaskSel) (va vo : VReg) (vb : VBase)
  | vlduB (m : MaskSel) (vd : VReg) (vb : VBase) (vi : VInc)
  | vldsuB (m : MaskSel) (vd : VReg) (vb : VBase) (vs : VStride) (vi : VInc)
  | vldxuB (m : MaskSel) (vd vo : VReg) (vb : VBase)
  | vldH (m : MaskSel) (vd : VReg) (vb : VBase) (vi : VInc)
  | vstH (m : MaskSel) (va : VReg) (vb : VBase) (vi : VInc)
  | vldsH (m : MaskSel) (vd : VReg) (vb : VBase) (vs : VStride) (vi : VInc)
  | vstsH (m : MaskSel) (va : VReg) (vb : VBase) (vs : VStride) (vi : VInc)
  | vldxH (m : MaskSel) (vd vo : VReg) (vb : VBase)
  | vstxuH (m : MaskSel) (va vo : VReg) (vb : VBase)
  | vstxH (m : MaskSel) (va vo : VReg) (vb : VBase)
  | vlduH (m : MaskSel) (vd : VReg) (vb : VBase) (vi : VInc)
  | vldsuH (m : MaskSel) (vd : VReg) (vb : VBase) (vs : VStride) (vi : VInc)
  | vldxuH (m : MaskSel) (vd vo : VReg) (vb : VBase)
  | vldW (m : MaskSel) (vd : VReg) (vb : VBase) (vi : VInc)
  | vstW (m : MaskSel) (va : VReg) (vb : VBase) (vi : VInc)
  | vldsW (m : MaskSel) (vd : VReg) (vb : VBase) (vs : VStride) (vi : VInc)
  | vstsW (m : MaskSel) (va : VReg) (vb : VBase) (vs : VStride) (vi : VInc)
  | vldxW (m : MaskSel) (vd vo : VReg) (vb : VBase)
  | vstxuW (m : MaskSel) (va vo : VReg) (vb : VBase)
  | vstxW (m : MaskSel) (va vo : VReg) (vb : VBase)
  | vldlVV (m : MaskSel) (vd va : VReg)
  | vstlVV (m : MaskSel) (va vb : VReg)
  | vfld (fd : FReg) (vb : VBase) (vi : VInc)
  | vfst (fd : FReg) (vb : VBase) (vi : VInc)
  | vstlVS (m : MaskSel) (va : VReg) (rs : SReg)
  -- Specified without an encoding (R106, R268)
  | vfpop (rs : SReg) (fa : FReg)
deriving DecidableEq, Repr

end Sys2Proof
end

