-- ==== Sys2Proof/WellFormed.lean ====
section
/-! DEFINITION. Which instructions have an instruction word in an instance. The operand ranges are
in the operand types; two things remain: `vfpop` has no encoding (R106, R268), and the width of a
saturate instruction is the one the instance's `SatWidthField` gives (R181). -/

namespace Sys2Proof

/-- The instruction has an encoding in the instance `c`. An operand the machine refuses when the
instruction is executed (`$vf18`, `$vc4`, ...) is still well formed: its word decodes (R125). -/
def Instr.wellFormed (c : Config) : Instr → Bool
  | .vsat n _ _ _ => n == c.satWidth
  | .vsatu n _ _ _ => n == c.satWidth
  | .vsatsu n _ _ _ => n == c.satWidth
  | .vfpop _ _ => false
  | .vaddVV .. | .vsubVV .. | .vmacVV .. | .vandVV .. | .vorVV .. | .vxorVV .. | .vadduVV ..
  | .vsubuVV .. | .vmacuVV .. | .vabsdiffVV .. | .vsraVV .. | .vcmpeqVV .. | .vsllVV ..
  | .vsrlVV .. | .vrotVV .. | .vcmpltVV .. | .vdivVV .. | .vcmpleVV .. | .vmergeVV ..
  | .vcmpneqVV .. | .vcmpltuVV .. | .vdivuVV .. | .vcmpleuVV .. | .vmaxVV .. | .vextVV ..
  | .vinsVV .. | .vminVV .. | .vmulhiVV .. | .vmulloVV .. | .vmaxuVV .. | .vminuVV ..
  | .vmulhiuVV .. | .vmullouVV .. | .vccacc .. | .vupshift .. | .vcomp .. | .vexpand ..
  | .vabsVV .. | .vcczacc .. | .vaddVS .. | .vsubVS .. | .vmacVS .. | .vandVS .. | .vorVS ..
  | .vxorVS .. | .vadduVS .. | .vsubuVS .. | .vmacuVS .. | .vabsdiffVS .. | .vsraVS ..
  | .vcmpeqVS .. | .vsllVS .. | .vsrlVS .. | .vrotVS .. | .vcmpltVS .. | .vdivVS ..
  | .vcmpleVS .. | .vmergeVS .. | .vcmpneqVS .. | .vcmpltuVS .. | .vdivuVS .. | .vcmpleuVS ..
  | .vmaxVS .. | .vextVS .. | .vinsVS .. | .vminVS .. | .vmulhiVS .. | .vmulloVS .. | .vmaxuVS ..
  | .vextuVS .. | .vminuVS .. | .vmulhiuVS .. | .vmullouVS .. | .vsraSV .. | .vsubSV ..
  | .vsllSV .. | .vsrlSV .. | .vrotSV .. | .vcmpltSV .. | .vdivSV .. | .vcmpleSV ..
  | .vmergeSV .. | .vsubuSV .. | .vcmpltuSV .. | .vdivuSV .. | .vcmpleuSV .. | .vsaddVV ..
  | .vssubVV .. | .vsrr .. | .vsls .. | .vxmulhiVV .. | .vxmulloVV .. | .vsadduVV ..
  | .vssubuVV .. | .vsrru .. | .vslsu .. | .vxmulhiuVV .. | .vxmullouVV .. | .vxccacc ..
  | .vxcczacc .. | .vsaddVS .. | .vssubVS .. | .vxmulhiVS .. | .vxmulloVS .. | .vsadduVS ..
  | .vssubuVS .. | .vxmulhiuVS .. | .vxmullouVS .. | .vssubSV .. | .vssubuSV .. | .vfclr ..
  | .vfset .. | .vfandVV .. | .vfnorVV .. | .vforVV .. | .vfxorVV .. | .vfff1 .. | .vffl1 ..
  | .vfsetof .. | .vfsetbf .. | .vfsetif .. | .vfinsVS .. | .vfandVS .. | .vfnorVS ..
  | .vforVS .. | .vfxorVS .. | .vmstc .. | .vmcts .. | .vldB .. | .vstB .. | .vldsB ..
  | .vstsB .. | .vldxB .. | .vstxuB .. | .vstxB .. | .vlduB .. | .vldsuB .. | .vldxuB ..
  | .vldH .. | .vstH .. | .vldsH .. | .vstsH .. | .vldxH .. | .vstxuH .. | .vstxH .. | .vlduH ..
  | .vldsuH .. | .vldxuH .. | .vldW .. | .vstW .. | .vldsW .. | .vstsW .. | .vldxW ..
  | .vstxuW .. | .vstxW .. | .vldlVV .. | .vstlVV .. | .vfld .. | .vfst .. | .vstlVS .. => true

end Sys2Proof
end

