-- ==== Sys2Proof/Decode.lean ====
section
/-! DEFINITION. Decoding an instruction word (R125) and, after it, encoding a well-formed
instruction (R93 to R108). Both read the places of the fields from the instance's `FieldLayout`
(R93); the instruction is selected from `(OP, OPX, FUNC)` alone. -/

namespace Sys2Proof

/-- What decoding a word gives (R109, R125). -/
inductive Decoded where
  /-- The word is this instruction. -/
  | instr (i : Instr)
  /-- A reserved encoding: an empty cell of the opcode map, or a word that breaks R100 (R109). -/
  | reserved
  /-- `OP` is not 0x3D, 0x3E or 0x3F: an instruction of the scalar core (R109). -/
  | scalar
  /-- Fewer bytes than one 32-bit word (R90). -/
  | truncated
deriving DecidableEq, Repr

/-- The value of a bit range of a word (R10). -/
def BitField.get (f : BitField) (w : Nat) : Nat := w / 2 ^ f.lo % 2 ^ f.width

/-- The contribution of a bit range to the word it stands in. -/
def BitField.place (f : BitField) (v : Nat) : Nat := v * 2 ^ f.lo

/-- A flag register number occupies the low five bits of a six-bit register field (R29, R100). -/
def flagField (f : BitField) : BitField := { f with width := 5 }

/-- The fields every format has (R94). -/
def opcodeFields (l : FieldLayout) : List BitField := [l.op, l.opx, l.func]

/-- The part of a word that lies in the given bit ranges. -/
def sumOfFields (fs : List BitField) (w : Nat) : Nat := (fs.map fun f => f.place (f.get w)).sum

/-- R100: every bit outside the fields that the form uses is 0. -/
def onlyFields (l : FieldLayout) (operands : List BitField) (w : Nat) : Bool :=
  sumOfFields (opcodeFields l ++ operands) w == w

/-- A six-bit register number field: a vector or a control register. -/
def vregAt (f : BitField) (w : Nat) : VReg := Fin.ofNat 64 (f.get w)

/-- A flag register number: the low five bits of a register field (R100). -/
def fregAt (f : BitField) (w : Nat) : FReg := Fin.ofNat 32 ((flagField f).get w)

def sregAt (f : BitField) (w : Nat) : SReg := Fin.ofNat 32 (f.get w)

def vbaseAt (l : FieldLayout) (w : Nat) : VBase := Fin.ofNat 16 (l.vbase.get w)

def vincAt (l : FieldLayout) (w : Nat) : VInc := Fin.ofNat 8 (l.vinc.get w)

def vstrideAt (l : FieldLayout) (w : Nat) : VStride := Fin.ofNat 8 (l.vstride.get w)

/-- `MASK`: 0 selects `$vf0`, 1 selects `$vf1` (R94). -/
def maskAt (l : FieldLayout) (w : Nat) : MaskSel := if l.mask.get w = 0 then .vfmask0 else .vfmask1

/-- A word whose form is known: the instruction, if the bits outside its fields are 0 (R100). -/
def accept (l : FieldLayout) (operands : List BitField) (w : Nat) (i : Instr) : Decoded :=
  if onlyFields l operands w then .instr i else .reserved

/-- VR-type, `vD, vA, vB`, masked (R95). -/
def readVRvvv (l : FieldLayout) (w : Nat) (mk : MaskSel → VReg → VReg → VReg → Instr) : Decoded :=
  accept l [l.mask, l.vd, l.va, l.vb] w
    (mk (maskAt l w) (vregAt l.vd w) (vregAt l.va w) (vregAt l.vb w))

/-- VR-type, `vF, vA, vB`, masked: the compares (R108). -/
def readVRfvv (l : FieldLayout) (w : Nat) (mk : MaskSel → FReg → VReg → VReg → Instr) : Decoded :=
  accept l [l.mask, flagField l.vd, l.va, l.vb] w
    (mk (maskAt l w) (fregAt l.vd w) (vregAt l.va w) (vregAt l.vb w))

/-- VR-type, `vA, vB`, masked: `vmac`, `vstl` (R108). -/
def readVRab (l : FieldLayout) (w : Nat) (mk : MaskSel → VReg → VReg → Instr) : Decoded :=
  accept l [l.mask, l.va, l.vb] w (mk (maskAt l w) (vregAt l.va w) (vregAt l.vb w))

/-- VR-type, `vD, vA`, masked (R108). -/
def readVRmda (l : FieldLayout) (w : Nat) (mk : MaskSel → VReg → VReg → Instr) : Decoded :=
  accept l [l.mask, l.vd, l.va] w (mk (maskAt l w) (vregAt l.vd w) (vregAt l.va w))

/-- VR-type, `vD, vA`, not masked (R108). -/
def readVRda (l : FieldLayout) (w : Nat) (mk : VReg → VReg → Instr) : Decoded :=
  accept l [l.vd, l.va] w (mk (vregAt l.vd w) (vregAt l.va w))

/-- VR-type, `vD`: the copies from the accumulators (R108). -/
def readVRd (l : FieldLayout) (w : Nat) (mk : VReg → Instr) : Decoded :=
  accept l [l.vd] w (mk (vregAt l.vd w))

/-- VR-type with flag numbers, `vFD, vFA, vFB` (R95). -/
def readVRfff (l : FieldLayout) (w : Nat) (mk : FReg → FReg → FReg → Instr) : Decoded :=
  accept l [flagField l.vd, flagField l.va, flagField l.vb] w
    (mk (fregAt l.vd w) (fregAt l.va w) (fregAt l.vb w))

/-- VR-type with flag numbers, `vFD, vFA` (R108). -/
def readVRff (l : FieldLayout) (w : Nat) (mk : FReg → FReg → Instr) : Decoded :=
  accept l [flagField l.vd, flagField l.va] w (mk (fregAt l.vd w) (fregAt l.va w))

/-- VR-type with flag numbers, `vFD` (R108). -/
def readVRf (l : FieldLayout) (w : Nat) (mk : FReg → Instr) : Decoded :=
  accept l [flagField l.vd] w (mk (fregAt l.vd w))

/-- SS-type, `vD`, one vector source in `VA`, `rS`, masked: `.vs` and `.sv` (R96). -/
def readSSvs (l : FieldLayout) (w : Nat) (mk : MaskSel → VReg → VReg → SReg → Instr) : Decoded :=
  accept l [l.mask, l.vd, l.va, l.rsSrc] w
    (mk (maskAt l w) (vregAt l.vd w) (vregAt l.va w) (sregAt l.rsSrc w))

/-- SS-type, `vF`, one vector source in `VA`, `rS`, masked (R96). -/
def readSSfvs (l : FieldLayout) (w : Nat) (mk : MaskSel → FReg → VReg → SReg → Instr) : Decoded :=
  accept l [l.mask, flagField l.vd, l.va, l.rsSrc] w
    (mk (maskAt l w) (fregAt l.vd w) (vregAt l.va w) (sregAt l.rsSrc w))

/-- SS-type, `vA, rS`, masked, "all zeros in the vD field" (R96). -/
def readSSa (l : FieldLayout) (w : Nat) (mk : MaskSel → VReg → SReg → Instr) : Decoded :=
  accept l [l.mask, l.va, l.rsSrc] w (mk (maskAt l w) (vregAt l.va w) (sregAt l.rsSrc w))

/-- SS-type, `vD, rS`, not masked: `vins.vs` (R96). -/
def readSSd (l : FieldLayout) (w : Nat) (mk : VReg → SReg → Instr) : Decoded :=
  accept l [l.vd, l.rsSrc] w (mk (vregAt l.vd w) (sregAt l.rsSrc w))

/-- SS-type with flag numbers, `vFD, vFA, rS` (R96). -/
def readSSff (l : FieldLayout) (w : Nat) (mk : FReg → FReg → SReg → Instr) : Decoded :=
  accept l [flagField l.vd, flagField l.va, l.rsSrc] w
    (mk (fregAt l.vd w) (fregAt l.va w) (sregAt l.rsSrc w))

/-- SS-type, `vF, rS`: `vfins.vs` (R96). -/
def readSSf (l : FieldLayout) (w : Nat) (mk : FReg → SReg → Instr) : Decoded :=
  accept l [flagField l.vd, l.rsSrc] w (mk (fregAt l.vd w) (sregAt l.rsSrc w))

/-- SS-type, `vc, rS`: `vmstc`, the control register in `VD` (R108, R280). -/
def readSSc (l : FieldLayout) (w : Nat) (mk : CReg → SReg → Instr) : Decoded :=
  accept l [l.vd, l.rsSrc] w (mk (vregAt l.vd w) (sregAt l.rsSrc w))

/-- SD-type, `rS, vA`: `vext.vs`, `vextu.vs` (R97). -/
def readSDv (l : FieldLayout) (w : Nat) (mk : SReg → VReg → Instr) : Decoded :=
  accept l [l.rsDst, l.va] w (mk (sregAt l.rsDst w) (vregAt l.va w))

/-- SD-type, `rS, vF`: `vfff1`, `vffl1` (R97). -/
def readSDf (l : FieldLayout) (w : Nat) (mk : SReg → FReg → Instr) : Decoded :=
  accept l [l.rsDst, flagField l.va] w (mk (sregAt l.rsDst w) (fregAt l.va w))

/-- SD-type, `rS, vc`: `vmcts`, the control register in `VA` (R97, R281). -/
def readSDc (l : FieldLayout) (w : Nat) (mk : SReg → CReg → Instr) : Decoded :=
  accept l [l.rsDst, l.va] w (mk (sregAt l.rsDst w) (vregAt l.va w))

/-- VM-type, unit stride (R98). -/
def readVM (l : FieldLayout) (w : Nat) (mk : MaskSel → VReg → VBase → VInc → Instr) : Decoded :=
  accept l [l.mask, l.vd, l.vbase, l.vinc] w
    (mk (maskAt l w) (vregAt l.vd w) (vbaseAt l w) (vincAt l w))

/-- VM-type with a flag number, not masked: `vfld`, `vfst` (R98). -/
def readVMf (l : FieldLayout) (w : Nat) (mk : FReg → VBase → VInc → Instr) : Decoded :=
  accept l [flagField l.vd, l.vbase, l.vinc] w (mk (fregAt l.vd w) (vbaseAt l w) (vincAt l w))

/-- VMS-type, constant stride (R99). -/
def readVMS (l : FieldLayout) (w : Nat) (mk : MaskSel → VReg → VBase → VStride → VInc → Instr) : Decoded :=
  accept l [l.mask, l.vd, l.vbase, l.vstride, l.vinc] w
    (mk (maskAt l w) (vregAt l.vd w) (vbaseAt l w) (vstrideAt l w) (vincAt l w))

/-- VMX-type, indexed (R101). -/
def readVMX (l : FieldLayout) (w : Nat) (mk : MaskSel → VReg → VReg → VBase → Instr) : Decoded :=
  accept l [l.mask, l.vd, l.voff, l.vbase] w
    (mk (maskAt l w) (vregAt l.vd w) (vregAt l.voff w) (vbaseAt l w))

/-- Opcode 0x3D, OPX 0: source Table 13 (R103). -/
def decodeVectorRegister (c : Config) (w : Nat) : Nat → Decoded
  | 0b000_000 => readVRvvv c.layout w .vaddVV
  | 0b000_001 => readVRvvv c.layout w .vsubVV
  | 0b000_011 => readVRab c.layout w .vmacVV
  | 0b000_100 => readVRvvv c.layout w .vandVV
  | 0b000_110 => readVRvvv c.layout w .vorVV
  | 0b000_111 => readVRvvv c.layout w .vxorVV
  | 0b001_000 => readVRvvv c.layout w .vadduVV
  | 0b001_001 => readVRvvv c.layout w .vsubuVV
  | 0b001_011 => readVRab c.layout w .vmacuVV
  | 0b001_101 => readVRvvv c.layout w .vabsdiffVV
  | 0b010_000 => readVRvvv c.layout w .vsraVV
  | 0b010_001 => readVRfvv c.layout w .vcmpeqVV
  | 0b010_010 => readVRvvv c.layout w .vsllVV
  | 0b010_011 => readVRvvv c.layout w .vsrlVV
  | 0b010_100 => readVRvvv c.layout w .vrotVV
  | 0b010_101 => readVRfvv c.layout w .vcmpltVV
  | 0b010_110 => readVRvvv c.layout w .vdivVV
  | 0b010_111 => readVRfvv c.layout w .vcmpleVV
  | 0b011_000 => readVRvvv c.layout w .vmergeVV
  | 0b011_001 => readVRfvv c.layout w .vcmpneqVV
  | 0b011_101 => readVRfvv c.layout w .vcmpltuVV
  | 0b011_110 => readVRvvv c.layout w .vdivuVV
  | 0b011_111 => readVRfvv c.layout w .vcmpleuVV
  | 0b100_001 => readVRvvv c.layout w .vmaxVV
  | 0b100_010 => readVRda c.layout w .vextVV
  | 0b100_011 => readVRda c.layout w .vinsVV
  | 0b100_101 => readVRvvv c.layout w .vminVV
  | 0b100_110 => readVRvvv c.layout w .vmulhiVV
  | 0b100_111 => readVRvvv c.layout w .vmulloVV
  | 0b101_001 => readVRvvv c.layout w .vmaxuVV
  | 0b101_101 => readVRvvv c.layout w .vminuVV
  | 0b101_110 => readVRvvv c.layout w .vmulhiuVV
  | 0b101_111 => readVRvvv c.layout w .vmullouVV
  | 0b110_000 => readVRd c.layout w .vccacc
  | 0b110_001 => readVRda c.layout w .vupshift
  | 0b110_010 => readVRmda c.layout w .vcomp
  | 0b110_011 => readVRmda c.layout w .vexpand
  | 0b110_101 => readVRmda c.layout w .vabsVV
  | 0b111_000 => readVRd c.layout w .vcczacc
  | _ => .reserved

/-- Opcode 0x3D, OPX 1: source Table 14 (R104). -/
def decodeScalarVector (c : Config) (w : Nat) : Nat → Decoded
  | 0b000_000 => readSSvs c.layout w .vaddVS
  | 0b000_001 => readSSvs c.layout w .vsubVS
  | 0b000_011 => readSSa c.layout w .vmacVS
  | 0b000_100 => readSSvs c.layout w .vandVS
  | 0b000_110 => readSSvs c.layout w .vorVS
  | 0b000_111 => readSSvs c.layout w .vxorVS
  | 0b001_000 => readSSvs c.layout w .vadduVS
  | 0b001_001 => readSSvs c.layout w .vsubuVS
  | 0b001_011 => readSSa c.layout w .vmacuVS
  | 0b001_101 => readSSvs c.layout w .vabsdiffVS
  | 0b010_000 => readSSvs c.layout w .vsraVS
  | 0b010_001 => readSSfvs c.layout w .vcmpeqVS
  | 0b010_010 => readSSvs c.layout w .vsllVS
  | 0b010_011 => readSSvs c.layout w .vsrlVS
  | 0b010_100 => readSSvs c.layout w .vrotVS
  | 0b010_101 => readSSfvs c.layout w .vcmpltVS
  | 0b010_110 => readSSvs c.layout w .vdivVS
  | 0b010_111 => readSSfvs c.layout w .vcmpleVS
  | 0b011_000 => readSSvs c.layout w .vmergeVS
  | 0b011_001 => readSSfvs c.layout w .vcmpneqVS
  | 0b011_101 => readSSfvs c.layout w .vcmpltuVS
  | 0b011_110 => readSSvs c.layout w .vdivuVS
  | 0b011_111 => readSSfvs c.layout w .vcmpleuVS
  | 0b100_001 => readSSvs c.layout w .vmaxVS
  | 0b100_010 => readSDv c.layout w .vextVS
  | 0b100_011 => readSSd c.layout w .vinsVS
  | 0b100_101 => readSSvs c.layout w .vminVS
  | 0b100_110 => readSSvs c.layout w .vmulhiVS
  | 0b100_111 => readSSvs c.layout w .vmulloVS
  | 0b101_001 => readSSvs c.layout w .vmaxuVS
  | 0b101_010 => readSDv c.layout w .vextuVS
  | 0b101_101 => readSSvs c.layout w .vminuVS
  | 0b101_110 => readSSvs c.layout w .vmulhiuVS
  | 0b101_111 => readSSvs c.layout w .vmullouVS
  | 0b110_000 => readSSvs c.layout w (fun m vd va rs => .vsraSV m vd rs va)
  | 0b110_001 => readSSvs c.layout w (fun m vd va rs => .vsubSV m vd rs va)
  | 0b110_010 => readSSvs c.layout w (fun m vd va rs => .vsllSV m vd rs va)
  | 0b110_011 => readSSvs c.layout w (fun m vd va rs => .vsrlSV m vd rs va)
  | 0b110_100 => readSSvs c.layout w (fun m vd va rs => .vrotSV m vd rs va)
  | 0b110_101 => readSSfvs c.layout w (fun m fd va rs => .vcmpltSV m fd rs va)
  | 0b110_110 => readSSvs c.layout w (fun m vd va rs => .vdivSV m vd rs va)
  | 0b110_111 => readSSfvs c.layout w (fun m fd va rs => .vcmpleSV m fd rs va)
  | 0b111_000 => readSSvs c.layout w (fun m vd va rs => .vmergeSV m vd rs va)
  | 0b111_001 => readSSvs c.layout w (fun m vd va rs => .vsubuSV m vd rs va)
  | 0b111_101 => readSSfvs c.layout w (fun m fd va rs => .vcmpltuSV m fd rs va)
  | 0b111_110 => readSSvs c.layout w (fun m vd va rs => .vdivuSV m vd rs va)
  | 0b111_111 => readSSfvs c.layout w (fun m fd va rs => .vcmpleuSV m fd rs va)
  | _ => .reserved

/-- Opcode 0x3E, OPX 0: source Table 15 (R105). The width of a saturate instruction is the one
`SatWidthField` gives (R181). -/
def decodeFixedPoint (c : Config) (w : Nat) : Nat → Decoded
  | 0b000_000 => readVRvvv c.layout w .vsaddVV
  | 0b000_001 => readVRvvv c.layout w .vssubVV
  | 0b000_011 => readVRmda c.layout w (.vsat c.satWidth)
  | 0b000_100 => readVRmda c.layout w .vsrr
  | 0b000_101 => readVRmda c.layout w .vsls
  | 0b000_110 => readVRvvv c.layout w .vxmulhiVV
  | 0b000_111 => readVRvvv c.layout w .vxmulloVV
  | 0b001_000 => readVRvvv c.layout w .vsadduVV
  | 0b001_001 => readVRvvv c.layout w .vssubuVV
  | 0b001_011 => readVRmda c.layout w (.vsatu c.satWidth)
  | 0b001_100 => readVRmda c.layout w .vsrru
  | 0b001_101 => readVRmda c.layout w .vslsu
  | 0b001_110 => readVRvvv c.layout w .vxmulhiuVV
  | 0b001_111 => readVRvvv c.layout w .vxmullouVV
  | 0b010_000 => readVRd c.layout w .vxccacc
  | 0b010_011 => readVRmda c.layout w (.vsatsu c.satWidth)
  | 0b011_000 => readVRd c.layout w .vxcczacc
  | 0b100_000 => readSSvs c.layout w .vsaddVS
  | 0b100_001 => readSSvs c.layout w .vssubVS
  | 0b100_110 => readSSvs c.layout w .vxmulhiVS
  | 0b100_111 => readSSvs c.layout w .vxmulloVS
  | 0b101_000 => readSSvs c.layout w .vsadduVS
  | 0b101_001 => readSSvs c.layout w .vssubuVS
  | 0b101_110 => readSSvs c.layout w .vxmulhiuVS
  | 0b101_111 => readSSvs c.layout w .vxmullouVS
  | 0b110_001 => readSSvs c.layout w (fun m vd va rs => .vssubSV m vd rs va)
  | 0b111_001 => readSSvs c.layout w (fun m vd va rs => .vssubuSV m vd rs va)
  | _ => .reserved

/-- Opcode 0x3E, OPX 1: source Table 16 (R106). -/
def decodeFlagMisc (c : Config) (w : Nat) : Nat → Decoded
  | 0b000_000 => readVRf c.layout w .vfclr
  | 0b000_001 => readVRf c.layout w .vfset
  | 0b000_100 => readVRfff c.layout w .vfandVV
  | 0b000_101 => readVRfff c.layout w .vfnorVV
  | 0b000_110 => readVRfff c.layout w .vforVV
  | 0b000_111 => readVRfff c.layout w .vfxorVV
  | 0b001_000 => readSDf c.layout w .vfff1
  | 0b001_001 => readSDf c.layout w .vffl1
  | 0b010_000 => readVRff c.layout w .vfsetof
  | 0b010_001 => readVRff c.layout w .vfsetbf
  | 0b010_010 => readVRff c.layout w .vfsetif
  | 0b011_010 => readSSf c.layout w .vfinsVS
  | 0b011_100 => readSSff c.layout w .vfandVS
  | 0b011_101 => readSSff c.layout w .vfnorVS
  | 0b011_110 => readSSff c.layout w .vforVS
  | 0b011_111 => readSSff c.layout w .vfxorVS
  | 0b101_000 => readSSc c.layout w .vmstc
  | 0b101_001 => readSDc c.layout w .vmcts
  | _ => .reserved

/-- Opcode 0x3F, OPX 0: source Table 17 (R107). -/
def decodeMemory (c : Config) (w : Nat) : Nat → Decoded
  | 0b000_000 => readVM c.layout w .vldB
  | 0b000_001 => readVM c.layout w .vstB
  | 0b000_010 => readVMS c.layout w .vldsB
  | 0b000_011 => readVMS c.layout w .vstsB
  | 0b000_100 => readVMX c.layout w .vldxB
  | 0b000_101 => readVMX c.layout w .vstxuB
  | 0b000_110 => readVMX c.layout w .vstxB
  | 0b001_000 => readVM c.layout w .vlduB
  | 0b001_010 => readVMS c.layout w .vldsuB
  | 0b001_100 => readVMX c.layout w .vldxuB
  | 0b010_000 => readVM c.layout w .vldH
  | 0b010_001 => readVM c.layout w .vstH
  | 0b010_010 => readVMS c.layout w .vldsH
  | 0b010_011 => readVMS c.layout w .vstsH
  | 0b010_100 => readVMX c.layout w .vldxH
  | 0b010_101 => readVMX c.layout w .vstxuH
  | 0b010_110 => readVMX c.layout w .vstxH
  | 0b011_000 => readVM c.layout w .vlduH
  | 0b011_010 => readVMS c.layout w .vldsuH
  | 0b011_100 => readVMX c.layout w .vldxuH
  | 0b100_000 => readVM c.layout w .vldW
  | 0b100_001 => readVM c.layout w .vstW
  | 0b100_010 => readVMS c.layout w .vldsW
  | 0b100_011 => readVMS c.layout w .vstsW
  | 0b100_100 => readVMX c.layout w .vldxW
  | 0b100_101 => readVMX c.layout w .vstxuW
  | 0b100_110 => readVMX c.layout w .vstxW
  | 0b110_000 => readVRmda c.layout w .vldlVV
  | 0b110_001 => readVRab c.layout w .vstlVV
  | 0b110_010 => readVMf c.layout w .vfld
  | 0b110_011 => readVMf c.layout w .vfst
  | _ => .reserved

/-- Opcode 0x3F, OPX 1: "Unused except for vstl.vs" (R107). -/
def decodeMemoryScalar (c : Config) (w : Nat) : Nat → Decoded
  | 0b110_001 => readSSa c.layout w .vstlVS
  | _ => .reserved

/-- The decode procedure of R125, steps 1 to 4, on a word given as a number. -/
def decodeNat (c : Config) (w : Nat) : Decoded :=
  match c.layout.op.get w, c.layout.opx.get w with
  | 0x3D, 0 => decodeVectorRegister c w (c.layout.func.get w)
  | 0x3D, _ => decodeScalarVector c w (c.layout.func.get w)
  | 0x3E, 0 => decodeFixedPoint c w (c.layout.func.get w)
  | 0x3E, _ => decodeFlagMisc c w (c.layout.func.get w)
  | 0x3F, 0 => decodeMemory c w (c.layout.func.get w)
  | 0x3F, _ => decodeMemoryScalar c w (c.layout.func.get w)
  | _, _ => .scalar

/-- Decoding one instruction word (R90: every vector instruction is one 32-bit word). -/
def decodeWord (c : Config) (w : Word) : Decoded := decodeNat c w.toNat

/-- A 32-bit instruction word from its bytes, the lowest address first: little-endian (R64).
PRESUMED: log entry 15. -/
def wordOfBytes (b0 b1 b2 b3 : Byte) : Word := b3 ++ b2 ++ b1 ++ b0

/-- The bytes of an instruction word, the lowest address first (R64). -/
def bytesOfWord (w : Word) : List Byte :=
  [w.extractLsb' 0 8, w.extractLsb' 8 8, w.extractLsb' 16 8, w.extractLsb' 24 8]

/-- Decoding the instruction at the head of any sequence of bytes. -/
def decodeBytes (c : Config) : List Byte → Decoded
  | b0 :: b1 :: b2 :: b3 :: _ => decodeWord c (wordOfBytes b0 b1 b2 b3)
  | _ => .truncated

/-- The instruction the decoder reads from an instruction whose bits are `w`, under the default
field layout of R93 (test configuration TC1; that its `SatWidthField` gives `.b` is the model's choice.
DESIGN CHOICE: log entry 38). -/
def decodeTableWord (nbits w : Nat) : Option Instr :=
  match decodeBytes Config.tc1 (bytesOfWord (BitVec.ofNat 32 (w % 2 ^ nbits))) with
  | .instr i => some i
  | _ => none

/-! ### Encoding -/

/-- `MASK` of R94. -/
def maskBit : MaskSel → Nat
  | .vfmask0 => 0
  | .vfmask1 => 1

/-- A word from `OP`, `OPX`, `FUNC` and the operand fields with their values; every other bit is 0
(R93, R100). -/
def packWord (l : FieldLayout) (op opx func : Nat) (operands : List (BitField × Nat)) : Word :=
  BitVec.ofNat 32
    ((l.op.place op + l.opx.place opx + l.func.place func)
      + (operands.map fun p => p.1.place p.2).sum)

def packVRvvv (l : FieldLayout) (op opx func : Nat) (m : MaskSel) (vd va vb : VReg) : Word :=
  packWord l op opx func [(l.mask, maskBit m), (l.vd, vd.val), (l.va, va.val), (l.vb, vb.val)]

def packVRfvv (l : FieldLayout) (op opx func : Nat) (m : MaskSel) (fd : FReg) (va vb : VReg) : Word :=
  packWord l op opx func [(l.mask, maskBit m), (l.vd, fd.val), (l.va, va.val), (l.vb, vb.val)]

def packVRab (l : FieldLayout) (op opx func : Nat) (m : MaskSel) (va vb : VReg) : Word :=
  packWord l op opx func [(l.mask, maskBit m), (l.va, va.val), (l.vb, vb.val)]

def packVRmda (l : FieldLayout) (op opx func : Nat) (m : MaskSel) (vd va : VReg) : Word :=
  packWord l op opx func [(l.mask, maskBit m), (l.vd, vd.val), (l.va, va.val)]

def packVRda (l : FieldLayout) (op opx func : Nat) (vd va : VReg) : Word :=
  packWord l op opx func [(l.vd, vd.val), (l.va, va.val)]

def packVRd (l : FieldLayout) (op opx func : Nat) (vd : VReg) : Word :=
  packWord l op opx func [(l.vd, vd.val)]

def packVRfff (l : FieldLayout) (op opx func : Nat) (fd fa fb : FReg) : Word :=
  packWord l op opx func [(l.vd, fd.val), (l.va, fa.val), (l.vb, fb.val)]

def packVRff (l : FieldLayout) (op opx func : Nat) (fd fa : FReg) : Word :=
  packWord l op opx func [(l.vd, fd.val), (l.va, fa.val)]

def packVRf (l : FieldLayout) (op opx func : Nat) (fd : FReg) : Word :=
  packWord l op opx func [(l.vd, fd.val)]

def packSSvs (l : FieldLayout) (op opx func : Nat) (m : MaskSel) (vd va : VReg) (rs : SReg) : Word :=
  packWord l op opx func [(l.mask, maskBit m), (l.vd, vd.val), (l.va, va.val), (l.rsSrc, rs.val)]

def packSSfvs (l : FieldLayout) (op opx func : Nat) (m : MaskSel) (fd : FReg) (va : VReg) (rs : SReg) : Word :=
  packWord l op opx func [(l.mask, maskBit m), (l.vd, fd.val), (l.va, va.val), (l.rsSrc, rs.val)]

def packSSa (l : FieldLayout) (op opx func : Nat) (m : MaskSel) (va : VReg) (rs : SReg) : Word :=
  packWord l op opx func [(l.mask, maskBit m), (l.va, va.val), (l.rsSrc, rs.val)]

def packSSd (l : FieldLayout) (op opx func : Nat) (vd : VReg) (rs : SReg) : Word :=
  packWord l op opx func [(l.vd, vd.val), (l.rsSrc, rs.val)]

def packSSff (l : FieldLayout) (op opx func : Nat) (fd fa : FReg) (rs : SReg) : Word :=
  packWord l op opx func [(l.vd, fd.val), (l.va, fa.val), (l.rsSrc, rs.val)]

def packSSf (l : FieldLayout) (op opx func : Nat) (fd : FReg) (rs : SReg) : Word :=
  packWord l op opx func [(l.vd, fd.val), (l.rsSrc, rs.val)]

def packSSc (l : FieldLayout) (op opx func : Nat) (vc : CReg) (rs : SReg) : Word :=
  packWord l op opx func [(l.vd, vc.val), (l.rsSrc, rs.val)]

def packSDv (l : FieldLayout) (op opx func : Nat) (rs : SReg) (va : VReg) : Word :=
  packWord l op opx func [(l.rsDst, rs.val), (l.va, va.val)]

def packSDf (l : FieldLayout) (op opx func : Nat) (rs : SReg) (fa : FReg) : Word :=
  packWord l op opx func [(l.rsDst, rs.val), (l.va, fa.val)]

def packSDc (l : FieldLayout) (op opx func : Nat) (rs : SReg) (vc : CReg) : Word :=
  packWord l op opx func [(l.rsDst, rs.val), (l.va, vc.val)]

def packVM (l : FieldLayout) (op opx func : Nat) (m : MaskSel) (vd : VReg) (vb : VBase) (vi : VInc) : Word :=
  packWord l op opx func [(l.mask, maskBit m), (l.vd, vd.val), (l.vbase, vb.val), (l.vinc, vi.val)]

def packVMf (l : FieldLayout) (op opx func : Nat) (fd : FReg) (vb : VBase) (vi : VInc) : Word :=
  packWord l op opx func [(l.vd, fd.val), (l.vbase, vb.val), (l.vinc, vi.val)]

def packVMS (l : FieldLayout) (op opx func : Nat) (m : MaskSel) (vd : VReg) (vb : VBase) (vs : VStride) (vi : VInc) : Word :=
  packWord l op opx func [(l.mask, maskBit m), (l.vd, vd.val), (l.vbase, vb.val), (l.vstride, vs.val), (l.vinc, vi.val)]

def packVMX (l : FieldLayout) (op opx func : Nat) (m : MaskSel) (vd vo : VReg) (vb : VBase) : Word :=
  packWord l op opx func [(l.mask, maskBit m), (l.vd, vd.val), (l.voff, vo.val), (l.vbase, vb.val)]

/-- The word of an instruction, from the tables R103 to R108; `vfpop` has none (R106), and no word
carries the width of a saturate instruction (R181). -/
def encode (l : FieldLayout) : Instr → Option Word
  | .vaddVV m vd va vb => some (packVRvvv l 0x3D 0 0b000_000 m vd va vb)
  | .vsubVV m vd va vb => some (packVRvvv l 0x3D 0 0b000_001 m vd va vb)
  | .vmacVV m va vb => some (packVRab l 0x3D 0 0b000_011 m va vb)
  | .vandVV m vd va vb => some (packVRvvv l 0x3D 0 0b000_100 m vd va vb)
  | .vorVV m vd va vb => some (packVRvvv l 0x3D 0 0b000_110 m vd va vb)
  | .vxorVV m vd va vb => some (packVRvvv l 0x3D 0 0b000_111 m vd va vb)
  | .vadduVV m vd va vb => some (packVRvvv l 0x3D 0 0b001_000 m vd va vb)
  | .vsubuVV m vd va vb => some (packVRvvv l 0x3D 0 0b001_001 m vd va vb)
  | .vmacuVV m va vb => some (packVRab l 0x3D 0 0b001_011 m va vb)
  | .vabsdiffVV m vd va vb => some (packVRvvv l 0x3D 0 0b001_101 m vd va vb)
  | .vsraVV m vd va vb => some (packVRvvv l 0x3D 0 0b010_000 m vd va vb)
  | .vcmpeqVV m fd va vb => some (packVRfvv l 0x3D 0 0b010_001 m fd va vb)
  | .vsllVV m vd va vb => some (packVRvvv l 0x3D 0 0b010_010 m vd va vb)
  | .vsrlVV m vd va vb => some (packVRvvv l 0x3D 0 0b010_011 m vd va vb)
  | .vrotVV m vd va vb => some (packVRvvv l 0x3D 0 0b010_100 m vd va vb)
  | .vcmpltVV m fd va vb => some (packVRfvv l 0x3D 0 0b010_101 m fd va vb)
  | .vdivVV m vd va vb => some (packVRvvv l 0x3D 0 0b010_110 m vd va vb)
  | .vcmpleVV m fd va vb => some (packVRfvv l 0x3D 0 0b010_111 m fd va vb)
  | .vmergeVV m vd va vb => some (packVRvvv l 0x3D 0 0b011_000 m vd va vb)
  | .vcmpneqVV m fd va vb => some (packVRfvv l 0x3D 0 0b011_001 m fd va vb)
  | .vcmpltuVV m fd va vb => some (packVRfvv l 0x3D 0 0b011_101 m fd va vb)
  | .vdivuVV m vd va vb => some (packVRvvv l 0x3D 0 0b011_110 m vd va vb)
  | .vcmpleuVV m fd va vb => some (packVRfvv l 0x3D 0 0b011_111 m fd va vb)
  | .vmaxVV m vd va vb => some (packVRvvv l 0x3D 0 0b100_001 m vd va vb)
  | .vextVV vd va => some (packVRda l 0x3D 0 0b100_010 vd va)
  | .vinsVV vd va => some (packVRda l 0x3D 0 0b100_011 vd va)
  | .vminVV m vd va vb => some (packVRvvv l 0x3D 0 0b100_101 m vd va vb)
  | .vmulhiVV m vd va vb => some (packVRvvv l 0x3D 0 0b100_110 m vd va vb)
  | .vmulloVV m vd va vb => some (packVRvvv l 0x3D 0 0b100_111 m vd va vb)
  | .vmaxuVV m vd va vb => some (packVRvvv l 0x3D 0 0b101_001 m vd va vb)
  | .vminuVV m vd va vb => some (packVRvvv l 0x3D 0 0b101_101 m vd va vb)
  | .vmulhiuVV m vd va vb => some (packVRvvv l 0x3D 0 0b101_110 m vd va vb)
  | .vmullouVV m vd va vb => some (packVRvvv l 0x3D 0 0b101_111 m vd va vb)
  | .vccacc vd => some (packVRd l 0x3D 0 0b110_000 vd)
  | .vupshift vd va => some (packVRda l 0x3D 0 0b110_001 vd va)
  | .vcomp m vd va => some (packVRmda l 0x3D 0 0b110_010 m vd va)
  | .vexpand m vd va => some (packVRmda l 0x3D 0 0b110_011 m vd va)
  | .vabsVV m vd va => some (packVRmda l 0x3D 0 0b110_101 m vd va)
  | .vcczacc vd => some (packVRd l 0x3D 0 0b111_000 vd)
  | .vaddVS m vd va rs => some (packSSvs l 0x3D 1 0b000_000 m vd va rs)
  | .vsubVS m vd va rs => some (packSSvs l 0x3D 1 0b000_001 m vd va rs)
  | .vmacVS m va rs => some (packSSa l 0x3D 1 0b000_011 m va rs)
  | .vandVS m vd va rs => some (packSSvs l 0x3D 1 0b000_100 m vd va rs)
  | .vorVS m vd va rs => some (packSSvs l 0x3D 1 0b000_110 m vd va rs)
  | .vxorVS m vd va rs => some (packSSvs l 0x3D 1 0b000_111 m vd va rs)
  | .vadduVS m vd va rs => some (packSSvs l 0x3D 1 0b001_000 m vd va rs)
  | .vsubuVS m vd va rs => some (packSSvs l 0x3D 1 0b001_001 m vd va rs)
  | .vmacuVS m va rs => some (packSSa l 0x3D 1 0b001_011 m va rs)
  | .vabsdiffVS m vd va rs => some (packSSvs l 0x3D 1 0b001_101 m vd va rs)
  | .vsraVS m vd va rs => some (packSSvs l 0x3D 1 0b010_000 m vd va rs)
  | .vcmpeqVS m fd va rs => some (packSSfvs l 0x3D 1 0b010_001 m fd va rs)
  | .vsllVS m vd va rs => some (packSSvs l 0x3D 1 0b010_010 m vd va rs)
  | .vsrlVS m vd va rs => some (packSSvs l 0x3D 1 0b010_011 m vd va rs)
  | .vrotVS m vd va rs => some (packSSvs l 0x3D 1 0b010_100 m vd va rs)
  | .vcmpltVS m fd va rs => some (packSSfvs l 0x3D 1 0b010_101 m fd va rs)
  | .vdivVS m vd va rs => some (packSSvs l 0x3D 1 0b010_110 m vd va rs)
  | .vcmpleVS m fd va rs => some (packSSfvs l 0x3D 1 0b010_111 m fd va rs)
  | .vmergeVS m vd va rs => some (packSSvs l 0x3D 1 0b011_000 m vd va rs)
  | .vcmpneqVS m fd va rs => some (packSSfvs l 0x3D 1 0b011_001 m fd va rs)
  | .vcmpltuVS m fd va rs => some (packSSfvs l 0x3D 1 0b011_101 m fd va rs)
  | .vdivuVS m vd va rs => some (packSSvs l 0x3D 1 0b011_110 m vd va rs)
  | .vcmpleuVS m fd va rs => some (packSSfvs l 0x3D 1 0b011_111 m fd va rs)
  | .vmaxVS m vd va rs => some (packSSvs l 0x3D 1 0b100_001 m vd va rs)
  | .vextVS rs va => some (packSDv l 0x3D 1 0b100_010 rs va)
  | .vinsVS vd rs => some (packSSd l 0x3D 1 0b100_011 vd rs)
  | .vminVS m vd va rs => some (packSSvs l 0x3D 1 0b100_101 m vd va rs)
  | .vmulhiVS m vd va rs => some (packSSvs l 0x3D 1 0b100_110 m vd va rs)
  | .vmulloVS m vd va rs => some (packSSvs l 0x3D 1 0b100_111 m vd va rs)
  | .vmaxuVS m vd va rs => some (packSSvs l 0x3D 1 0b101_001 m vd va rs)
  | .vextuVS rs va => some (packSDv l 0x3D 1 0b101_010 rs va)
  | .vminuVS m vd va rs => some (packSSvs l 0x3D 1 0b101_101 m vd va rs)
  | .vmulhiuVS m vd va rs => some (packSSvs l 0x3D 1 0b101_110 m vd va rs)
  | .vmullouVS m vd va rs => some (packSSvs l 0x3D 1 0b101_111 m vd va rs)
  | .vsraSV m vd rs vb => some (packSSvs l 0x3D 1 0b110_000 m vd vb rs)
  | .vsubSV m vd rs vb => some (packSSvs l 0x3D 1 0b110_001 m vd vb rs)
  | .vsllSV m vd rs vb => some (packSSvs l 0x3D 1 0b110_010 m vd vb rs)
  | .vsrlSV m vd rs vb => some (packSSvs l 0x3D 1 0b110_011 m vd vb rs)
  | .vrotSV m vd rs vb => some (packSSvs l 0x3D 1 0b110_100 m vd vb rs)
  | .vcmpltSV m fd rs vb => some (packSSfvs l 0x3D 1 0b110_101 m fd vb rs)
  | .vdivSV m vd rs vb => some (packSSvs l 0x3D 1 0b110_110 m vd vb rs)
  | .vcmpleSV m fd rs vb => some (packSSfvs l 0x3D 1 0b110_111 m fd vb rs)
  | .vmergeSV m vd rs vb => some (packSSvs l 0x3D 1 0b111_000 m vd vb rs)
  | .vsubuSV m vd rs vb => some (packSSvs l 0x3D 1 0b111_001 m vd vb rs)
  | .vcmpltuSV m fd rs vb => some (packSSfvs l 0x3D 1 0b111_101 m fd vb rs)
  | .vdivuSV m vd rs vb => some (packSSvs l 0x3D 1 0b111_110 m vd vb rs)
  | .vcmpleuSV m fd rs vb => some (packSSfvs l 0x3D 1 0b111_111 m fd vb rs)
  | .vsaddVV m vd va vb => some (packVRvvv l 0x3E 0 0b000_000 m vd va vb)
  | .vssubVV m vd va vb => some (packVRvvv l 0x3E 0 0b000_001 m vd va vb)
  | .vsat _ m vd va => some (packVRmda l 0x3E 0 0b000_011 m vd va)
  | .vsrr m vd va => some (packVRmda l 0x3E 0 0b000_100 m vd va)
  | .vsls m vd va => some (packVRmda l 0x3E 0 0b000_101 m vd va)
  | .vxmulhiVV m vd va vb => some (packVRvvv l 0x3E 0 0b000_110 m vd va vb)
  | .vxmulloVV m vd va vb => some (packVRvvv l 0x3E 0 0b000_111 m vd va vb)
  | .vsadduVV m vd va vb => some (packVRvvv l 0x3E 0 0b001_000 m vd va vb)
  | .vssubuVV m vd va vb => some (packVRvvv l 0x3E 0 0b001_001 m vd va vb)
  | .vsatu _ m vd va => some (packVRmda l 0x3E 0 0b001_011 m vd va)
  | .vsrru m vd va => some (packVRmda l 0x3E 0 0b001_100 m vd va)
  | .vslsu m vd va => some (packVRmda l 0x3E 0 0b001_101 m vd va)
  | .vxmulhiuVV m vd va vb => some (packVRvvv l 0x3E 0 0b001_110 m vd va vb)
  | .vxmullouVV m vd va vb => some (packVRvvv l 0x3E 0 0b001_111 m vd va vb)
  | .vxccacc vd => some (packVRd l 0x3E 0 0b010_000 vd)
  | .vsatsu _ m vd va => some (packVRmda l 0x3E 0 0b010_011 m vd va)
  | .vxcczacc vd => some (packVRd l 0x3E 0 0b011_000 vd)
  | .vsaddVS m vd va rs => some (packSSvs l 0x3E 0 0b100_000 m vd va rs)
  | .vssubVS m vd va rs => some (packSSvs l 0x3E 0 0b100_001 m vd va rs)
  | .vxmulhiVS m vd va rs => some (packSSvs l 0x3E 0 0b100_110 m vd va rs)
  | .vxmulloVS m vd va rs => some (packSSvs l 0x3E 0 0b100_111 m vd va rs)
  | .vsadduVS m vd va rs => some (packSSvs l 0x3E 0 0b101_000 m vd va rs)
  | .vssubuVS m vd va rs => some (packSSvs l 0x3E 0 0b101_001 m vd va rs)
  | .vxmulhiuVS m vd va rs => some (packSSvs l 0x3E 0 0b101_110 m vd va rs)
  | .vxmullouVS m vd va rs => some (packSSvs l 0x3E 0 0b101_111 m vd va rs)
  | .vssubSV m vd rs vb => some (packSSvs l 0x3E 0 0b110_001 m vd vb rs)
  | .vssubuSV m vd rs vb => some (packSSvs l 0x3E 0 0b111_001 m vd vb rs)
  | .vfclr fd => some (packVRf l 0x3E 1 0b000_000 fd)
  | .vfset fd => some (packVRf l 0x3E 1 0b000_001 fd)
  | .vfandVV fd fa fb => some (packVRfff l 0x3E 1 0b000_100 fd fa fb)
  | .vfnorVV fd fa fb => some (packVRfff l 0x3E 1 0b000_101 fd fa fb)
  | .vforVV fd fa fb => some (packVRfff l 0x3E 1 0b000_110 fd fa fb)
  | .vfxorVV fd fa fb => some (packVRfff l 0x3E 1 0b000_111 fd fa fb)
  | .vfff1 rs fa => some (packSDf l 0x3E 1 0b001_000 rs fa)
  | .vffl1 rs fa => some (packSDf l 0x3E 1 0b001_001 rs fa)
  | .vfsetof fd fa => some (packVRff l 0x3E 1 0b010_000 fd fa)
  | .vfsetbf fd fa => some (packVRff l 0x3E 1 0b010_001 fd fa)
  | .vfsetif fd fa => some (packVRff l 0x3E 1 0b010_010 fd fa)
  | .vfinsVS fd rs => some (packSSf l 0x3E 1 0b011_010 fd rs)
  | .vfandVS fd fa rs => some (packSSff l 0x3E 1 0b011_100 fd fa rs)
  | .vfnorVS fd fa rs => some (packSSff l 0x3E 1 0b011_101 fd fa rs)
  | .vforVS fd fa rs => some (packSSff l 0x3E 1 0b011_110 fd fa rs)
  | .vfxorVS fd fa rs => some (packSSff l 0x3E 1 0b011_111 fd fa rs)
  | .vmstc vc rs => some (packSSc l 0x3E 1 0b101_000 vc rs)
  | .vmcts rs vc => some (packSDc l 0x3E 1 0b101_001 rs vc)
  | .vldB m vd vb vi => some (packVM l 0x3F 0 0b000_000 m vd vb vi)
  | .vstB m va vb vi => some (packVM l 0x3F 0 0b000_001 m va vb vi)
  | .vldsB m vd vb vs vi => some (packVMS l 0x3F 0 0b000_010 m vd vb vs vi)
  | .vstsB m va vb vs vi => some (packVMS l 0x3F 0 0b000_011 m va vb vs vi)
  | .vldxB m vd vo vb => some (packVMX l 0x3F 0 0b000_100 m vd vo vb)
  | .vstxuB m va vo vb => some (packVMX l 0x3F 0 0b000_101 m va vo vb)
  | .vstxB m va vo vb => some (packVMX l 0x3F 0 0b000_110 m va vo vb)
  | .vlduB m vd vb vi => some (packVM l 0x3F 0 0b001_000 m vd vb vi)
  | .vldsuB m vd vb vs vi => some (packVMS l 0x3F 0 0b001_010 m vd vb vs vi)
  | .vldxuB m vd vo vb => some (packVMX l 0x3F 0 0b001_100 m vd vo vb)
  | .vldH m vd vb vi => some (packVM l 0x3F 0 0b010_000 m vd vb vi)
  | .vstH m va vb vi => some (packVM l 0x3F 0 0b010_001 m va vb vi)
  | .vldsH m vd vb vs vi => some (packVMS l 0x3F 0 0b010_010 m vd vb vs vi)
  | .vstsH m va vb vs vi => some (packVMS l 0x3F 0 0b010_011 m va vb vs vi)
  | .vldxH m vd vo vb => some (packVMX l 0x3F 0 0b010_100 m vd vo vb)
  | .vstxuH m va vo vb => some (packVMX l 0x3F 0 0b010_101 m va vo vb)
  | .vstxH m va vo vb => some (packVMX l 0x3F 0 0b010_110 m va vo vb)
  | .vlduH m vd vb vi => some (packVM l 0x3F 0 0b011_000 m vd vb vi)
  | .vldsuH m vd vb vs vi => some (packVMS l 0x3F 0 0b011_010 m vd vb vs vi)
  | .vldxuH m vd vo vb => some (packVMX l 0x3F 0 0b011_100 m vd vo vb)
  | .vldW m vd vb vi => some (packVM l 0x3F 0 0b100_000 m vd vb vi)
  | .vstW m va vb vi => some (packVM l 0x3F 0 0b100_001 m va vb vi)
  | .vldsW m vd vb vs vi => some (packVMS l 0x3F 0 0b100_010 m vd vb vs vi)
  | .vstsW m va vb vs vi => some (packVMS l 0x3F 0 0b100_011 m va vb vs vi)
  | .vldxW m vd vo vb => some (packVMX l 0x3F 0 0b100_100 m vd vo vb)
  | .vstxuW m va vo vb => some (packVMX l 0x3F 0 0b100_101 m va vo vb)
  | .vstxW m va vo vb => some (packVMX l 0x3F 0 0b100_110 m va vo vb)
  | .vldlVV m vd va => some (packVRmda l 0x3F 0 0b110_000 m vd va)
  | .vstlVV m va vb => some (packVRab l 0x3F 0 0b110_001 m va vb)
  | .vfld fd vb vi => some (packVMf l 0x3F 0 0b110_010 fd vb vi)
  | .vfst fd vb vi => some (packVMf l 0x3F 0 0b110_011 fd vb vi)
  | .vstlVS m va rs => some (packSSa l 0x3F 1 0b110_001 m va rs)
  | .vfpop _ _ => none

end Sys2Proof
end

