-- ==== Sys2Proof/Machine/State.lean ====
section
/-! DEFINITION. The state of the machine as plain data, the ways a step can stop, and reset
(10_state.md; 60_exceptions.md rules R291, R292; 70_reset_and_hazards.md rule R320). -/

namespace Sys2Proof.Machine

/-- The model faults of R291. The hardware architects no exception (R290): a fault is the model's
treatment of a precondition the source states with "must". Every one of them is safe: the model
stops where the hardware does something no source describes. -/
inductive Fault where
  /-- A base or effective address is not a multiple of the access width `n` in bytes. Raised by every
  main-memory instruction, `vfld` and `vfst` (R65, R211). Safe. -/
  | misaligned (addr : Int) (n : Nat)
  /-- An element address is negative or its last byte lies above `2^32 - 1`. Raised by the same
  instructions (R62). Safe. -/
  | addrRange (addr : Int)
  /-- A byte of an access is not plain memory of `MemMap`. Raised by the same instructions (R61).
  Safe. -/
  | memUnmapped (addr : Int)
  /-- The word address `a` of VP `vp` lies outside its section or block of the local memory. Raised
  by `vldl`, `vstl` (R230). Safe. -/
  | localMemRange (vp a : Nat)
  /-- VP `vp` reads the word `a` of the local memory, which nothing has written since reset. Raised
  by `vldl` (R230, R291). Safe. -/
  | readBeforeWrite (vp a : Nat)
deriving DecidableEq, Repr

/-- The refusals of R292, and two for a `pc` at which no instruction stands. A refusal is no
hardware event: the spec gives the instruction no meaning there. Every one of them is safe. -/
inductive Refusal where
  /-- An instruction of the table that has no meaning in the model yet. Safe. -/
  | notModelled (mnemonic : String)
  /-- The word is a reserved encoding. Raised by the step, which decodes (R100, R109). Safe. -/
  | reservedEncoding
  /-- The instance lacks the unit: `MACL`, `VPUW` 32 for the MAC instructions, `Vmult`, `Vupshift`,
  `Vmanip`, `LMemN` (R8, R17, R162). Safe. -/
  | featureOff
  /-- A fixed-point instruction with `FixedPoint` Off (R180). Safe. -/
  | fixedPointNotImplemented
  /-- A memory width outside `MemMinWidth .. VPUW` (R67), or a saturate width that is not narrower
  (or, for `vsatsu`, wider) than the VP (R182 to R184). Safe. -/
  | widthNotAvailable
  /-- An operand names `$vf18` to `$vf29` (R26). Safe. -/
  | reservedFlagRegister
  /-- `vmstc` or `vmcts` names `$vc4` to `$vc27` (R37). Safe. -/
  | reservedControlRegister
  /-- `vmstc` to a static control register (R34). Safe. -/
  | staticControlRegister
  /-- `vmstc` of more than `MVL` to `VL` (R33). Safe. -/
  | vlOutOfRange
  /-- `vD = vA` in `vins.vv`, `vext.vv`, `vcomp`, `vexpand` (R242, R243, R247, R248). Safe. -/
  | sameRegister
  /-- `vins.vv` or `vext.vv` beyond element `MVL - 1` (R242, R243). Safe. -/
  | insertExtractOutOfRange
  /-- `vstl` with `LMemShare` On and `VL > NLane` (R230). Safe. -/
  | sharedLocalWrite
  /-- A vector store whose bytes overlap the program text (R74). Safe. -/
  | storeToCode
  /-- The `pc` stands just past the program: the run has ended (R324). Raised by the step. Safe. -/
  | runEnded
  /-- The `pc` stands at no word of the program. Raised by the step (R324). Safe. -/
  | pcOutsideProgram
deriving DecidableEq, Repr

/-- One distributed accumulator (R38). -/
structure Accumulator where
  /-- Its contents as an unsigned value, below `2^AccW`. -/
  value : Nat
  /-- Has anything written it since reset? R166 gives `vcczacc` drawn data where nothing has. DESIGN
  CHOICE: log entry 3. -/
  written : Bool
deriving DecidableEq, Repr

/-- Main memory: the listed bytes, addresses strictly rising, none listed with the value an unlisted
address reads as. -/
abbrev Memory := List Host.Cell

/-- The vector lane local memory: the words written since reset, by a key made of the block (or the
section of a VP) and the word address, keys strictly rising (R41). -/
abbrev LocalMemory := List (Nat × Elem)

/-- The state of the machine: everything of R12 and 10_state.md, the program of R74 and the model's
own counter of draws. -/
structure State where
  /-- The parameters of the instance (R6, R9). No instruction changes them. -/
  cfg : Config
  /-- The program counter (R44). -/
  pc : Word
  /-- `StartPC`: the address of the program's first word (R320). -/
  startPC : Word
  /-- The program: a fixed sequence of instruction words outside `Mem` (R74, R324). -/
  program : List Word
  /-- The scalar registers `x[0 .. 31]` (R30). -/
  x : Vector Word 32
  /-- The vector registers: each the list of its `MVL` elements (R20). -/
  v : Vector (List Elem) 64
  /-- The flag registers: each the list of its `MVL` bits (R23). -/
  f : Vector (List Bool) 32
  /-- `VL`, `$vc0` (R33). -/
  vl : Word
  /-- `vindex`, `$vc2` (R36). -/
  vindex : Word
  /-- `vshamt`, `$vc3` (R36). -/
  vshamt : Word
  /-- `vstride0` to `vstride7`, `$vc32` to `$vc39` (R36). -/
  vstride : Vector Word 8
  /-- `vinc0` to `vinc7`, `$vc40` to `$vc47` (R36). -/
  vinc : Vector Word 8
  /-- `vbase0` to `vbase15`, `$vc48` to `$vc63` (R36). -/
  vbase : Vector Word 16
  /-- The distributed accumulators `ACC[0 .. NAcc-1]`; none when `MACL` is 0 (R38). -/
  acc : List Accumulator
  /-- The vector lane local memory (R41). -/
  lmem : LocalMemory
  /-- Main memory (R60). -/
  mem : Memory
  /-- The MODEL's own field, not the spec's: how many draws have been used (R13). DESIGN CHOICE, safe:
  log entry 10. -/
  drawCount : Nat
deriving DecidableEq, Repr

/-- What a step or an instruction answers. -/
abbrev Result := Host.Outcome State Fault Refusal

/-- The machine right after reset, for an instance and a `StartPC` (R46, R320). The hardwired and
static values are in the accessors that read them; a value the spec does not give is 0, and the
program is empty: it is loaded from outside. DESIGN CHOICE, unsafe: log entries 2, 3 and 6. -/
def State.resetOf (c : Config) (start : Word) : State where
  cfg := c
  pc := start
  startPC := start
  program := []
  x := Vector.replicate 32 0
  v := Vector.replicate 64 (List.replicate c.mvl 0)
  f := (Vector.replicate 32 (List.replicate c.mvl false)).set 31 (List.replicate c.mvl true)
  vl := 0
  vindex := 0
  vshamt := 0
  vstride := Vector.replicate 8 0
  vinc := Vector.replicate 8 0
  vbase := Vector.replicate 16 0
  acc := List.replicate (if c.macl = 0 then 0 else c.nAcc) { value := 0, written := false }
  lmem := []
  mem := []
  drawCount := 0

/-- The machine right after reset in the instance TC1 of 92_eei_decisions.md section 3, whose
`StartPC` is `0x0000_1000`; the source fixes no instance. DESIGN CHOICE, unsafe:
log entry 1. -/
def State.reset : State := State.resetOf Config.tc1 0x00001000

end Sys2Proof.Machine
end

