-- ==== Sys2Proof/Machine/Ops.lean ====
section
/-! DEFINITION. The named operations over registers and main memory (10_state.md, 20_memory.md).
Every read and write of a register goes through an accessor of this file or of Flags.lean; that is
where the hardwired registers are.

Taking an exception: the vector extension architects none, and no return from one (R290, R295,
R296): there is no such operation to model. A violated precondition is a `Fault` (R291). -/

namespace Sys2Proof.Machine

/-! ### Register files -/

/-- A register file after one register is written. -/
def regSet {α : Type} {n : Nat} (v : Vector α n) (i : Fin n) (a : α) : Vector α n := v.set i a

/-! ### Lists of cells by rising key -/

/-- The value listed under a key. -/
def cellGet {α : Type} (k : Nat) : List (Nat × α) → Option α
  | [] => none
  | (j, a) :: t => if k = j then some a else cellGet k t

/-- List a value under a key, keeping the keys rising. -/
def cellPut {α : Type} (k : Nat) (a : α) : List (Nat × α) → List (Nat × α)
  | [] => [(k, a)]
  | (j, b) :: t =>
    if k < j then (k, a) :: (j, b) :: t
    else if k = j then (k, a) :: t
    else (j, b) :: cellPut k a t

/-- Take a key off the list. -/
def cellErase {α : Type} (k : Nat) (l : List (Nat × α)) : List (Nat × α) :=
  l.filter fun c => c.1 != k

/-- The keys rise strictly. -/
def risingKeys {α : Type} : List (Nat × α) → Bool
  | [] => true
  | [_] => true
  | c :: d :: t => c.1 < d.1 && risingKeys (d :: t)

/-! ### Main memory -/

/-- What a byte that nothing has written reads as. The spec gives no initial contents (R46, R61);
DESIGN CHOICE, unsafe: log entry 4. -/
def unlistedByte : Byte := 0

/-- The byte at an address. -/
def Memory.read (m : Memory) (a : Nat) : Byte := (cellGet a m).getD unlistedByte

/-- Memory after one byte is written; the canonical form is kept. -/
def Memory.write (m : Memory) (a : Nat) (b : Byte) : Memory :=
  if b = unlistedByte then cellErase a m else cellPut a b m

/-- The canonical form: addresses strictly rising, no entry that reads as an unlisted address. -/
def Memory.wf (m : Memory) : Bool := risingKeys m && m.all fun c => c.2 != unlistedByte

/-- `MemRead(a, n)` of R13: `n` bytes assembled little-endian (R63). PRESUMED: log entry 15. -/
def Memory.readLE (m : Memory) (a : Nat) : Nat → Nat
  | 0 => 0
  | n + 1 => (m.read a).toNat + 256 * Memory.readLE m (a + 1) n

/-- `MemWrite(a, n, v)` of R13: `n` bytes, little-endian (R63). -/
def Memory.writeLE (m : Memory) (a : Nat) : Nat → Nat → Memory
  | 0, _ => m
  | n + 1, v => Memory.writeLE (m.write a (BitVec.ofNat 8 v)) (a + 1) n (v / 256)

/-- `MemMap`: plain memory backs the address (R61). -/
def plainByte (c : Config) (a : Nat) : Bool :=
  c.memMap.any fun r => r.base ≤ a && a < r.base + r.size

/-! ### The program counter -/

/-- Every vector instruction ends with `pc <- wrap_32(u(pc) + 4)` (R44). PRESUMED: log entry 14. -/
def State.advance (s : State) : State := { s with pc := s.pc + 4 }

/-! ### Scalar registers -/

/-- `x[r]` as it reads: `x[0]` is 0 (R31). PRESUMED: log entry 13. -/
def State.xreg (s : State) (r : SReg) : Word := if r = 0 then 0 else s.x.get r

/-- `x[r] <- a`: a write to `x[0]` has no effect (R31). -/
def State.setX (s : State) (r : SReg) (a : Word) : State :=
  { s with x := if r = 0 then s.x else regSet s.x r a }

/-! ### Vector registers -/

/-- `V[r][i]` as it reads: `vr0` is fixed at 0 for all elements (R21). -/
def State.velem (s : State) (r : VReg) (i : Nat) : Elem :=
  if r = 0 then 0 else (s.v.get r).getD i 0

/-- `V[r][i] <- g i` for every `i` in `0 .. MVL-1`; a write to `vr0` is discarded (R21). An
instruction that leaves an element alone passes its old value. -/
def State.setV (s : State) (r : VReg) (g : Nat → Elem) : State :=
  { s with v := if r = 0 then s.v else regSet s.v r ((List.range s.cfg.mvl).map g) }

/-! ### Control registers -/

/-- `VL` as a number (R12). -/
def State.vlen (s : State) : Nat := s.vl.toNat

/-- `$vc4` to `$vc27`, which are not in source Table 3 (R37). -/
def reservedCreg (n : CReg) : Bool := 4 ≤ n.val && n.val ≤ 27

/-- The static control registers `$vc1`, `$vc28` to `$vc31` (R34). -/
def staticCreg (n : CReg) : Bool := n.val == 1 || (28 ≤ n.val && n.val ≤ 31)

/-- `C[n]` as it reads (R32); none for a number that is not in source Table 3. The static registers
hold the parameters of the instance (R34). -/
def State.creg (s : State) (n : CReg) : Option Word :=
  if reservedCreg n then none
  else if n.val = 0 then some s.vl
  else if n.val = 1 then some (BitVec.ofNat 32 s.cfg.w)
  else if n.val = 2 then some s.vindex
  else if n.val = 3 then some s.vshamt
  else if n.val = 28 then some (BitVec.ofNat 32 s.cfg.accNcopy)
  else if n.val = 29 then some (BitVec.ofNat 32 s.cfg.nLane)
  else if n.val = 30 then some (BitVec.ofNat 32 s.cfg.mvl)
  else if n.val = 31 then some (BitVec.ofNat 32 s.cfg.logMvl)
  else if h : n.val < 40 then some (s.vstride.get ⟨n.val - 32, by omega⟩)
  else if h : n.val < 48 then some (s.vinc.get ⟨n.val - 40, by omega⟩)
  else some (s.vbase.get ⟨n.val - 48, by omega⟩)

/-- `C[n] <- a` for a register that `vmstc` may write (R32). -/
def State.setCreg (s : State) (n : CReg) (a : Word) : State :=
  { s with
    vl := if n.val = 0 then a else s.vl
    vindex := if n.val = 2 then a else s.vindex
    vshamt := if n.val = 3 then a else s.vshamt
    vstride := Vector.ofFn fun j => if n.val = 32 + j.val then a else s.vstride.get j
    vinc := Vector.ofFn fun j => if n.val = 40 + j.val then a else s.vinc.get j
    vbase := Vector.ofFn fun j => if n.val = 48 + j.val then a else s.vbase.get j }

/-- `VL <- n`. -/
def State.setVl (s : State) (n : Nat) : State := { s with vl := BitVec.ofNat 32 n }

/-- The element index that `vindex` names: `u(C[2]) mod MVL` (R36). -/
def State.elementIndex (s : State) : Nat := s.vindex.toNat % s.cfg.mvl

/-- The auto-increment of R212: `vbase <- wrap_32(u(vbase) + s(vinc))`. -/
def State.autoIncrement (s : State) (vb : VBase) (vi : VInc) : State :=
  { s with vbase := regSet s.vbase vb (s.vbase.get vb + s.vinc.get vi) }

/-! ### Draws -/

/-- The value drawn for a purpose at an element of the instruction being executed (R13). -/
def State.draw (s : State) (k : DrawKind) (i : Nat) : BitVec 32 := Config.draw k s.drawCount i

/-- Mark the draws of this instruction as used, so that the next use is fresh. -/
def State.useDraws (s : State) : State := { s with drawCount := s.drawCount + 1 }

/-! ### Outcomes -/

/-- Go on if a condition holds, refuse if it does not (R292). -/
def require (ok : Bool) (r : Refusal) (k : Result) : Result := if ok then k else .refused r

/-- Go on unless one of the checks found a fault (R291). -/
def unlessFault (f : Option Fault) (k : Result) : Result :=
  match f with
  | some e => .fault e
  | none => k

end Sys2Proof.Machine
end

