-- ==== Sys2Proof/Machine/Flags.lean ====
section
/-! DEFINITION. Flag registers, masks, and the side effect on `$vf16`, `$vf17` (10_state.md section
3; 00_scope.md rule R14). -/

namespace Sys2Proof.Machine

/-- `F[f][i]` as it reads: `$vf30` is all zeros, `$vf31` all ones (R25). -/
def State.felem (s : State) (f : FReg) (i : Nat) : Bool :=
  if f = 30 then false else if f = 31 then true else (s.f.get f).getD i false

/-- `F[f][i] <- g i` for every `i` in `0 .. MVL-1`; a write to `$vf30` or `$vf31` is discarded (R25).
An instruction that leaves a bit alone passes its old value. -/
def State.setF (s : State) (f : FReg) (g : Nat → Bool) : State :=
  { s with f := if f = 30 ∨ f = 31 then s.f else regSet s.f f ((List.range s.cfg.mvl).map g) }

/-- `$vf18` to `$vf29`, the unused flag registers (R26). -/
def reservedFlag (f : FReg) : Bool := 18 ≤ f.val && f.val ≤ 29

/-- Refuse an instruction that names an unused flag register (R26). -/
def requireFlags (fs : List FReg) (k : Result) : Result :=
  require (fs.all fun f => !reservedFlag f) .reservedFlagRegister k

/-- The flag register that a mask selector names (R94). -/
def maskFlag : MaskSel → FReg
  | .vfmask0 => 0
  | .vfmask1 => 1

/-- VP `i` takes part in a masked instruction: it is below `VL` and its mask bit is 0 (R14). -/
def State.active (s : State) (m : MaskSel) (i : Nat) : Bool :=
  i < s.vlen && !s.felem (maskFlag m) i

/-- The VPs that take part, in increasing order (R14). -/
def State.activeVPs (s : State) (m : MaskSel) : List Nat :=
  (List.range s.cfg.mvl).filter (s.active m)

/-- `FlagSideEffect` of R27: after an instruction of opcode 0x3D, or of opcode 0x3E with OPX 0, every
element of `$vf16` and of `$vf17` is a draw. -/
def State.flagSideEffect (s : State) : State :=
  { s with
    f :=
      regSet
        (regSet s.f 16 ((List.range s.cfg.mvl).map fun i => (s.draw .overflowFlag i).getLsbD 0))
        17 ((List.range s.cfg.mvl).map fun i => (s.draw .saturateFlag i).getLsbD 0)
    drawCount := s.drawCount + 1 }

/-- The end of an instruction of opcode 0x3D, or of opcode 0x3E with OPX 0 (R27, R44). -/
def State.finish (s : State) : Result := .next s.flagSideEffect.advance

/-! ### Searching a flag register (R274, R275) -/

/-- The elements below `VL` whose bit is 1, in increasing order. -/
def State.setBits (s : State) (f : FReg) : List Nat := (List.range s.vlen).filter (s.felem f)

/-- `p` of R275: the least element below `VL` whose bit is 1, or `VL`. -/
def State.firstSet (s : State) (f : FReg) : Nat := (s.setBits f).head?.getD s.vlen

/-- The greatest element below `VL` whose bit is 1, or `VL` (R270). -/
def State.lastSet (s : State) (f : FReg) : Nat := (s.setBits f).getLast?.getD s.vlen

end Sys2Proof.Machine
end

