-- ==== Sys2Proof/Machine/Operands.lean ====
section
/-! DEFINITION. The operand forms: sources of an element operation (R15), flag operands (R260) and
the addresses of memory elements (R210). -/

namespace Sys2Proof.Machine

/-- The low `W` bits of a 32-bit value, in an element's container: `trunc_W` (R11). -/
def truncElem (c : Config) (a : BitVec 32) : Elem := (a.setWidth c.w).setWidth 32

/-- One source of an element operation (R15). -/
inductive Source where
  /-- `V[r][i]`. -/
  | vec (r : VReg)
  /-- `trunc_W(x[r])`, the same for every element. -/
  | scalar (r : SReg)
deriving DecidableEq, Repr

/-- `opA(i)` or `opB(i)` (R15). -/
def State.source (s : State) (o : Source) (i : Nat) : Elem :=
  match o with
  | .vec r => s.velem r i
  | .scalar r => truncElem s.cfg (s.xreg r)

/-- The second source of a flag instruction (R260). -/
inductive FlagSource where
  /-- `F[f][i]`. -/
  | flag (f : FReg)
  /-- Bit 0 of `x[r]`, for every VP. -/
  | scalar (r : SReg)
deriving DecidableEq, Repr

/-- `b(i)` of R262. -/
def State.flagSource (s : State) (o : FlagSource) (i : Nat) : Bool :=
  match o with
  | .flag f => s.felem f i
  | .scalar r => (s.xreg r).getLsbD 0

/-- The flag registers that a flag source names. -/
def FlagSource.flags : FlagSource → List FReg
  | .flag f => [f]
  | .scalar _ => []

/-! ### Addresses of memory elements, as unbounded integers (R62, R210) -/

/-- `B`, the base address (R210). -/
def State.base (s : State) (vb : VBase) : Nat := (s.vbase.get vb).toNat

/-- Unit stride: `B + i * n`. -/
def State.unitAddr (s : State) (vb : VBase) (wd : Width) (i : Nat) : Int :=
  s.base vb + i * wd.bytes

/-- Constant stride: `B + i * s(C[32 + VSTRIDE]) * n`. -/
def State.strideAddr (s : State) (vb : VBase) (vs : VStride) (wd : Width) (i : Nat) : Int :=
  s.base vb + i * (s.vstride.get vs).toInt * wd.bytes

/-- Indexed: `B + s(V[VOFF][i])`, the offset a `W`-bit signed number of bytes. -/
def State.indexAddr (s : State) (vb : VBase) (vo : VReg) (i : Nat) : Int :=
  s.base vb + ((s.velem vo i).setWidth s.cfg.w).toInt

/-- Extension of a value of `8n` bits to the VP width: by its sign (`vld`, `vlds`, `vldx`) or by
zeros (the `u` forms) (R66, R210). -/
def extendElem (c : Config) (signed : Bool) (wd : Width) (a : Nat) : Elem :=
  if signed then ((BitVec.ofNat wd.bits a).signExtend c.w).setWidth 32
  else ((BitVec.ofNat wd.bits a).setWidth c.w).setWidth 32

end Sys2Proof.Machine
end

