-- ==== Sys2Proof/Machine/Arith.lean ====
section
/-! DEFINITION. What one VP computes: the element functions of the integer, logical and fixed-point
instructions, on vectors of `W` bits (40_integer.md, 41_logical.md, 42_fixed_point.md). `s(v)` of
R11 is `v.toInt`, `u(v)` is `v.toNat`, `wrap_W(z)` is `BitVec.ofInt W z`. -/

namespace Sys2Proof.Machine

/-- An element function of two operands: the instance, the value drawn for each purpose, `opA(i)`,
`opB(i)`. -/
abbrev ElemOp := (c : Config) → (DrawKind → BitVec c.w) → BitVec c.w → BitVec c.w → BitVec c.w

/-! ### Sums, differences, products (R133 to R141, R167) -/

/-- `vadd` (R134). -/
def opAdd : ElemOp := fun c _ a b => BitVec.ofInt c.w (a.toInt + b.toInt)

/-- `vaddu` (R135). -/
def opAddu : ElemOp := fun c _ a b => BitVec.ofInt c.w ((a.toNat : Int) + b.toNat)

/-- `vsub` (R136). -/
def opSub : ElemOp := fun c _ a b => BitVec.ofInt c.w (a.toInt - b.toInt)

/-- `vsubu` (R137). -/
def opSubu : ElemOp := fun c _ a b => BitVec.ofInt c.w ((a.toNat : Int) - b.toNat)

/-- `p[2W-1 : W]` of a product or a shifted product `p` (R138). -/
def upperHalf (w : Nat) (p : Int) : BitVec w := (BitVec.ofInt (2 * w) p).extractLsb' w w

/-- `p[W-1 : 0]` (R140). -/
def lowerHalf (w : Nat) (p : Int) : BitVec w := (BitVec.ofInt (2 * w) p).extractLsb' 0 w

/-- `vmulhi` (R138). -/
def opMulhi : ElemOp := fun c _ a b => upperHalf c.w (a.toInt * b.toInt)

/-- `vmulhiu` (R139). -/
def opMulhiu : ElemOp := fun c _ a b => upperHalf c.w ((a.toNat : Int) * b.toNat)

/-- `vmullo` (R140). -/
def opMullo : ElemOp := fun c _ a b => lowerHalf c.w (a.toInt * b.toInt)

/-- `vmullou` (R141). -/
def opMullou : ElemOp := fun c _ a b => lowerHalf c.w ((a.toNat : Int) * b.toNat)

/-- `vabsdiff` (R133); `AbsDiffSigned` says how the operands are read. -/
def opAbsdiff : ElemOp := fun c _ a b =>
  if c.absDiffSigned then BitVec.ofNat c.w (a.toInt - b.toInt).natAbs
  else BitVec.ofNat c.w ((a.toNat : Int) - b.toNat).natAbs

/-- `vabs` (R132), of its first operand. -/
def opAbs : ElemOp := fun c draw a _ =>
  if a.toInt = -2 ^ (c.w - 1) then draw .absMin else BitVec.ofNat c.w a.toInt.natAbs

/-! ### Division (R131, R142, R143) -/

/-- `DivRound(a, b)` for a divisor that is not 0 (R131). -/
def divRound (r : DivRounding) (a b : Int) : Int :=
  match r with
  | .towardZero => a.tdiv b
  | .unstated =>
    if a.fmod b = 0 then a.fdiv b
    else if Config.quotientRoundsUp a b then a.fdiv b + 1 else a.fdiv b

/-- `vdiv` (R142). -/
def opDiv : ElemOp := fun c draw a b =>
  if b.toInt = 0 then draw .divZero
  else if a.toInt = -2 ^ (c.w - 1) ∧ b.toInt = -1 then draw .divOvf
  else BitVec.ofInt c.w (divRound c.divRound a.toInt b.toInt)

/-- `vdivu` (R143). -/
def opDivu : ElemOp := fun c draw a b =>
  if b.toNat = 0 then draw .divZero else BitVec.ofNat c.w (a.toNat / b.toNat)

/-! ### Shifts and rotation: the first operand of a shift is the amount (R144, R173, R174), the
second operand of a rotation is (R175) -/

/-- `vsra` (R144). -/
def opSra : ElemOp := fun c draw a b =>
  if c.w ≤ a.toNat then draw .shiftOver else BitVec.ofInt c.w (b.toInt / 2 ^ a.toNat)

/-- `vsll` (R173). -/
def opSll : ElemOp := fun c draw a b =>
  if c.w ≤ a.toNat then draw .shiftOver else BitVec.ofNat c.w (b.toNat * 2 ^ a.toNat)

/-- `vsrl` (R174). -/
def opSrl : ElemOp := fun c draw a b =>
  if c.w ≤ a.toNat then draw .shiftOver else BitVec.ofNat c.w (b.toNat / 2 ^ a.toNat)

/-- `vrot` (R175): right, the amount modulo `W`. -/
def opRot : ElemOp := fun c _ a b => a.rotateRight (b.toNat % c.w)

/-! ### Minimum, maximum (R145 to R148) -/

/-- `vmin` (R145). -/
def opMin : ElemOp := fun _ _ a b => if a.toInt ≤ b.toInt then a else b

/-- `vminu` (R146). -/
def opMinu : ElemOp := fun _ _ a b => if a.toNat ≤ b.toNat then a else b

/-- `vmax` (R147). -/
def opMax : ElemOp := fun _ _ a b => if b.toInt ≤ a.toInt then a else b

/-- `vmaxu` (R148). -/
def opMaxu : ElemOp := fun _ _ a b => if b.toNat ≤ a.toNat then a else b

/-! ### Logical (R170 to R172) -/

/-- `vand` (R170). -/
def opAnd : ElemOp := fun _ _ a b => a &&& b

/-- `vor` (R171). -/
def opOr : ElemOp := fun _ _ a b => a ||| b

/-- `vxor` (R172). -/
def opXor : ElemOp := fun _ _ a b => a ^^^ b

/-! ### Compares (R149 to R154) -/

/-- A compare of two elements of `W` bits. -/
abbrev CmpOp := (w : Nat) → BitVec w → BitVec w → Bool

/-- `vcmpeq` (R149). -/
def cmpEq : CmpOp := fun _ a b => a == b

/-- `vcmpneq` (R150). -/
def cmpNeq : CmpOp := fun _ a b => a != b

/-- `vcmplt` (R151). -/
def cmpLt : CmpOp := fun _ a b => a.toInt < b.toInt

/-- `vcmpltu` (R152). -/
def cmpLtu : CmpOp := fun _ a b => a.toNat < b.toNat

/-- `vcmple` (R153). -/
def cmpLe : CmpOp := fun _ a b => a.toInt ≤ b.toInt

/-- `vcmpleu` (R154). -/
def cmpLeu : CmpOp := fun _ a b => a.toNat ≤ b.toNat

/-! ### Fixed point (R181 to R196) -/

/-- `sat_s(z, N)` (R181). -/
def satSigned (n : Nat) (z : Int) : Int := max (-2 ^ (n - 1)) (min z (2 ^ (n - 1) - 1))

/-- `sat_u(z, N)` (R181). -/
def satUnsigned (n : Nat) (z : Int) : Int := max 0 (min z (2 ^ n - 1))

/-- `FxRound(z, n)` (R181). -/
def fxRound (r : FxRounding) (z : Int) (n : Nat) : Int :=
  match r with
  | .unstated =>
    if z % 2 ^ n = 0 then z / 2 ^ n
    else if Config.fxRoundsUp z n then z / 2 ^ n + 1 else z / 2 ^ n
  | .halfUp => if n = 0 then z else (z + 2 ^ (n - 1)) / 2 ^ n

/-- `vsat` to `N` bits (R182). -/
def opSat (n : Width) : ElemOp := fun c _ a _ => BitVec.ofInt c.w (satSigned n.bits a.toInt)

/-- `vsatu` to `N` bits (R183). -/
def opSatu (n : Width) : ElemOp := fun c _ a _ => BitVec.ofInt c.w (satUnsigned n.bits a.toNat)

/-- `vsatsu` to `N` bits (R184). -/
def opSatsu (n : Width) : ElemOp := fun c _ a _ => BitVec.ofInt c.w (satUnsigned n.bits a.toInt)

/-- `vsadd` (R185). -/
def opSadd : ElemOp := fun c _ a b => BitVec.ofInt c.w (satSigned c.w (a.toInt + b.toInt))

/-- `vsaddu` (R186). -/
def opSaddu : ElemOp := fun c _ a b => BitVec.ofInt c.w (satUnsigned c.w ((a.toNat : Int) + b.toNat))

/-- `vssub` (R187). -/
def opSsub : ElemOp := fun c _ a b => BitVec.ofInt c.w (satSigned c.w (a.toInt - b.toInt))

/-- `vssubu` (R188). -/
def opSsubu : ElemOp := fun c _ a b => BitVec.ofInt c.w (satUnsigned c.w ((a.toNat : Int) - b.toNat))

/-- `vsrr` by `n = u(vshamt)` (R189). -/
def opSrr (n : Nat) : ElemOp := fun c draw a _ =>
  if c.w ≤ n then draw .fxShiftOver else BitVec.ofInt c.w (fxRound c.fxRound a.toInt n)

/-- `vsrru` (R190). -/
def opSrru (n : Nat) : ElemOp := fun c draw a _ =>
  if c.w ≤ n then draw .fxShiftOver else BitVec.ofInt c.w (fxRound c.fxRound a.toNat n)

/-- `vsls` (R191). -/
def opSls (n : Nat) : ElemOp := fun c draw a _ =>
  if c.w ≤ n then draw .fxShiftOver else BitVec.ofInt c.w (satSigned c.w (a.toInt * 2 ^ n))

/-- `vslsu` (R192). -/
def opSlsu (n : Nat) : ElemOp := fun c draw a _ =>
  if c.w ≤ n then draw .fxShiftOver else BitVec.ofInt c.w (satUnsigned c.w (a.toNat * 2 ^ n))

/-- The shifted and rounded product of the fixed-point multiplies: a draw for `n` of `2W` or more
(R181, R193). -/
def opFxMul (n : Nat) (half : (w : Nat) → Int → BitVec w) (c : Config)
    (draw : DrawKind → BitVec c.w) (p : Int) : BitVec c.w :=
  if 2 * c.w ≤ n then draw .fxShiftOver else half c.w (fxRound c.fxRound p n)

/-- `vxmulhi` (R193). -/
def opXmulhi (n : Nat) : ElemOp := fun c draw a b =>
  opFxMul n upperHalf c draw (a.toInt * b.toInt)

/-- `vxmulhiu` (R194). -/
def opXmulhiu (n : Nat) : ElemOp := fun c draw a b =>
  opFxMul n upperHalf c draw (a.toNat * b.toNat)

/-- `vxmullo` (R195). -/
def opXmullo (n : Nat) : ElemOp := fun c draw a b =>
  opFxMul n lowerHalf c draw (a.toInt * b.toInt)

/-- `vxmullou` (R196). -/
def opXmullou (n : Nat) : ElemOp := fun c draw a b =>
  opFxMul n lowerHalf c draw (a.toNat * b.toNat)

/-! ### The standard element loop (R14, R15) -/

/-- The element function applied to the elements `i` of two sources. -/
def State.elemResult (s : State) (op : ElemOp) (a b : Source) (i : Nat) : Elem :=
  (op s.cfg (fun k => (s.draw k i).setWidth s.cfg.w) ((s.source a i).setWidth s.cfg.w)
    ((s.source b i).setWidth s.cfg.w)).setWidth 32

/-- The standard loop of R14 into `vD`: the active elements take the results, the others keep their
values; then the end of an arithmetic instruction. All sources are read first. -/
def State.elementwise (s : State) (m : MaskSel) (vd : VReg) (a b : Source) (op : ElemOp) : Result :=
  (s.setV vd fun i => if s.active m i then s.elemResult op a b i else s.velem vd i).finish

/-- The standard loop of a compare into `vF` (R156). The side effect on `$vf16`, `$vf17` comes
before the explicit write, which stands (R27). DEDUCED: log entry 17. -/
def State.compare (s : State) (m : MaskSel) (fd : FReg) (a b : Source) (op : CmpOp) : Result :=
  requireFlags [fd]
    (.next (s.flagSideEffect.setF fd fun i =>
      if s.active m i then
        op s.cfg.w ((s.source a i).setWidth s.cfg.w) ((s.source b i).setWidth s.cfg.w)
      else s.flagSideEffect.felem fd i).advance)

end Sys2Proof.Machine
end

