-- ==== Sys2Proof/Machine/Access.lean ====
section
/-! DEFINITION. Accesses to main memory by the VPs: the checks of R211, loads, stores, and
the order of the element stores (20_memory.md; 43_memory_instructions.md section 1). -/

namespace Sys2Proof.Machine

/-- `MemMinWidth <= 8n <= VPUW` (R67). -/
def widthAvailable (c : Config) (wd : Width) : Bool :=
  c.memMinWidth.bits ≤ wd.bits && wd.bits ≤ c.w

/-- `Misaligned(addr, n)` of R65. -/
def alignFault (addr : Int) (n : Nat) : Option Fault :=
  if addr % n = 0 then none else some (.misaligned addr n)

/-- The checks of one access of `n` bytes, in the order of R211 step 3: alignment, address range,
plain memory. -/
def accessFault (c : Config) (addr : Int) (n : Nat) : Option Fault :=
  if addr % n ≠ 0 then some (.misaligned addr n)
  else if addr < 0 ∨ 2 ^ 32 < addr + n then some (.addrRange addr)
  else if (List.range n).all (fun j => plainByte c (addr.toNat + j)) then none
  else some (.memUnmapped addr)

/-- The fault an instruction reports: the base first, whatever `VL` and the mask are, then the
accessing VPs in increasing order (R211 steps 2 and 3). `n` is the access width in bytes. -/
def State.accessFaults (s : State) (vb : VBase) (baseAlign n : Nat) (vps : List Nat)
    (addr : Nat → Int) : Option Fault :=
  (alignFault (s.base vb) baseAlign).or (vps.findSome? fun i => accessFault s.cfg (addr i) n)

/-- The `n` bytes of an access and the program text have a byte in common (R74). DEDUCED: log
entry 26. -/
def State.hitsCode (s : State) (n : Nat) (addr : Int) : Bool :=
  max addr s.startPC.toNat < min (addr + n) (s.startPC.toNat + 4 * s.program.length)

/-- The accesses of a storing instruction keep off the program text; otherwise it is refused, by
step 1 of R211, before the base or any access is checked (D19). DEDUCED: log entry 25. -/
def State.avoidingCode (s : State) (n : Nat) (vps : List Nat) (addr : Nat → Int) (k : Result) :
    Result :=
  require (!vps.any fun i => s.hitsCode n (addr i)) .storeToCode k

/-! ### Loads -/

/-- A load of the active VPs from main memory (R210, R211): `vD` takes the extended values, a masked
VP leaves a hole. `after` is the auto-increment of the forms that have one. -/
def State.load (s : State) (wd : Width) (signed : Bool) (m : MaskSel) (vd : VReg) (vb : VBase)
    (addr : Nat → Int) (after : State → State) : Result :=
  require (widthAvailable s.cfg wd) .widthNotAvailable
    (unlessFault (s.accessFaults vb wd.bytes wd.bytes (s.activeVPs m) addr)
      (.next (after (s.setV vd fun i =>
        if s.active m i then extendElem s.cfg signed wd (s.mem.readLE (addr i).toNat wd.bytes)
        else s.velem vd i)).advance))

/-! ### Stores -/

/-- Memory after the given VPs store, one after the other: each writes the low `8n` bits of its
element (R210). -/
def State.storeElems (s : State) (wd : Width) (va : VReg) (addr : Nat → Int) (vps : List Nat) :
    Memory :=
  vps.foldl (fun mem i => mem.writeLE (addr i).toNat wd.bytes (s.velem va i).toNat) s.mem

/-- A store of VPs in a given order, after the refusals and the checks of R211 (R210). -/
def State.store (s : State) (wd : Width) (m : MaskSel) (va : VReg) (vb : VBase)
    (addr : Nat → Int) (order : List Nat) (after : State → State) : Result :=
  require (widthAvailable s.cfg wd) .widthNotAvailable
    (s.avoidingCode wd.bytes (s.activeVPs m) addr
      (unlessFault (s.accessFaults vb wd.bytes wd.bytes (s.activeVPs m) addr)
        (.next (after { s with mem := s.storeElems wd va addr order }).advance)))

/-- Insert a VP into a list of VPs that rises by a key. -/
def insertByKey (key : Nat → Nat) (i : Nat) : List Nat → List Nat
  | [] => [i]
  | j :: t => if key i ≤ key j then i :: j :: t else j :: insertByKey key i t

/-- The VPs in the order of a key. -/
def sortByKey (key : Nat → Nat) : List Nat → List Nat
  | [] => []
  | i :: t => insertByKey key i (sortByKey key t)

/-- No two of the VPs access the same address. -/
def distinctAddresses (addr : Nat → Int) : List Nat → Bool
  | [] => true
  | i :: t => t.all (fun j => addr j != addr i) && distinctAddresses addr t

/-- The order of the element stores of `vstxu`: "The stores may be performed in any order" (R71,
R221). Where two VPs store to one address the order is drawn: every order of the VPs is the order
of some keys. Where all addresses differ no order can be told from another. DEDUCED: log entry 27. -/
def State.anyOrder (s : State) (addr : Nat → Int) (vps : List Nat) : List Nat :=
  if distinctAddresses addr vps then vps
  else sortByKey (fun i => (s.draw .storeOrder i).toNat) vps

/-! ### Flag registers in memory (R225, R226) -/

/-- `K`, the number of bytes that `vfld` and `vfst` transfer: `ceil(VL / VPUW) * VPUW / 8`. -/
def State.flagBytes (s : State) : Nat := (s.vlen + s.cfg.w - 1) / s.cfg.w * (s.cfg.w / 8)

/-- The address of byte `j` of a flag register in memory (R225). -/
def State.flagAddr (s : State) (vb : VBase) (j : Nat) : Int := (s.base vb : Int) + j

/-- Bit `b` of byte `j` that `vfst` writes: the flag below `VL`, a draw above (R226). -/
def State.flagStoreBit (s : State) (fd : FReg) (i : Nat) : Bool :=
  if i < s.vlen then s.felem fd i else (s.draw .flagStorePad i).getLsbD 0

/-- Byte `j` that `vfst` writes: element `8j + b` is bit `b` (R225, R226). -/
def State.flagStoreByte (s : State) (fd : FReg) (j : Nat) : Byte :=
  BitVec.ofFnLE fun b : Fin 8 => s.flagStoreBit fd (8 * j + b)

end Sys2Proof.Machine
end

