-- ==== Sys2Proof/Machine/Accumulators.lean ====
section
/-! DEFINITION. The distributed accumulators and the operations over them (10_state.md rules R38 to
R40; 40_integer.md rules R162 to R166; 42_fixed_point.md rules R197, R198). -/

namespace Sys2Proof.Machine

/-- Number of accumulators: none when `MACL` is 0 (R38). -/
def accCount (c : Config) : Nat := if c.macl = 0 then 0 else c.nAcc

/-- `chain(k)` (R38). -/
def accChain (c : Config) (k : Nat) : Nat := if c.nAcc ≤ c.macl then 0 else k / c.macl

/-- `P`, "the length of the partial result vector" (R38). -/
def partialCount (c : Config) : Nat :=
  if c.nAcc ≤ c.macl then 1 else (c.nAcc + c.macl - 1) / c.macl

/-- `accmap(i)` (R38). -/
def accOf (c : Config) (i : Nat) : Nat := c.accmap.getD i 0

/-- The instance has the MAC units: `MACL` is not 0, and `VPUW` is not 32, where "multiply-accumulate
is absent" (R17, R162). -/
def macAvailable (c : Config) : Bool := c.macl != 0 && c.w != 32

/-- `ACC[k]` as an unsigned value. -/
def State.accValue (s : State) (k : Nat) : Nat := (s.acc.getD k { value := 0, written := false }).value

/-- Has anything written `ACC[k]` since reset? -/
def State.accWritten (s : State) (k : Nat) : Bool :=
  (s.acc.getD k { value := 0, written := false }).written

/-- `wrap_AccW(z)` as an unsigned value (R11). -/
def wrapAcc (c : Config) (z : Int) : Nat := (z % 2 ^ c.accW).toNat

/-- The product of two elements as an exact integer, signed (`vmac`) or unsigned (`vmacu`). -/
def State.macProduct (s : State) (signed : Bool) (a b : Source) (i : Nat) : Int :=
  if signed then
    ((s.source a i).setWidth s.cfg.w).toInt * ((s.source b i).setWidth s.cfg.w).toInt
  else
    (((s.source a i).setWidth s.cfg.w).toNat : Int) * ((s.source b i).setWidth s.cfg.w).toNat

/-- The active VPs that feed accumulator `k` (R38, R163). -/
def State.feeders (s : State) (m : MaskSel) (k : Nat) : List Nat :=
  (s.activeVPs m).filter fun i => accOf s.cfg i == k

/-- `vmac`, `vmacu`: every accumulator adds, modulo `2^AccW`, the products of the active VPs that feed
it (R163, R164). -/
def State.multiplyAccumulate (s : State) (signed : Bool) (m : MaskSel) (a b : Source) : Result :=
  require (macAvailable s.cfg) .featureOff
    { s with
      acc := (List.range (accCount s.cfg)).map fun k =>
        { value := wrapAcc s.cfg (s.accValue k + ((s.feeders m k).map (s.macProduct signed a b)).sum)
          written := s.accWritten k || !(s.feeders m k).isEmpty } }.finish

/-- The accumulators of chain `j` (R165). -/
def chainMembers (c : Config) (j : Nat) : List Nat :=
  (List.range (accCount c)).filter fun k => accChain c k == j

/-- `sum_j` of R165. -/
def State.chainSum (s : State) (j : Nat) : Nat :=
  wrapAcc s.cfg ((chainMembers s.cfg j).map s.accValue).sum

/-- The low `W` bits of a partial result: "Only the bottom VPUW bits" (R165). -/
def State.chainLow (s : State) (j : Nat) : Elem :=
  (BitVec.ofNat s.cfg.w (s.chainSum j)).setWidth 32

/-- A partial result saturated to the signed `W`-bit range (R197). -/
def State.chainSaturated (s : State) (j : Nat) : Elem :=
  (BitVec.ofInt s.cfg.w
    (satSigned s.cfg.w (BitVec.ofNat s.cfg.accW (s.chainSum j)).toInt)).setWidth 32

/-- What a copy that zeroes the accumulators writes: a draw where an accumulator of the chain was
never written (R166, R291). DESIGN CHOICE: log entry 3. -/
def State.firstClearing (s : State) (g : Nat → Elem) (j : Nat) : Elem :=
  if (chainMembers s.cfg j).all s.accWritten then g j else truncElem s.cfg (s.draw .accUnwritten j)

/-- The copy of the partial results into the first `P` elements of `vD`, and `VL <- P`; the other
elements keep their values, and the mask and the incoming `VL` do not matter (R165). -/
def State.copyPartials (s : State) (vd : VReg) (g : Nat → Elem) : State :=
  (s.setV vd fun i => if i < partialCount s.cfg then g i else s.velem vd i).setVl
    (partialCount s.cfg)

/-- Every accumulator becomes 0 (R166). -/
def State.zeroAccumulators (s : State) : State :=
  { s with acc := List.replicate (accCount s.cfg) { value := 0, written := true } }

end Sys2Proof.Machine
end

