-- ==== Sys2Proof/Machine/Integer.lean ====
section
/-! DEFINITION. The integer instructions (40_integer.md): arithmetic, compares,
multiply-accumulate and the copies from the accumulators. -/

namespace Sys2Proof.Machine

/-- `vadd.vv` (R134). -/
def execVaddVV (m : MaskSel) (vd va vb : VReg) (s : State) : Result :=
  s.elementwise m vd (.vec va) (.vec vb) opAdd

/-- `vsub.vv` (R136). -/
def execVsubVV (m : MaskSel) (vd va vb : VReg) (s : State) : Result :=
  s.elementwise m vd (.vec va) (.vec vb) opSub

/-- `vaddu.vv` (R135). -/
def execVadduVV (m : MaskSel) (vd va vb : VReg) (s : State) : Result :=
  s.elementwise m vd (.vec va) (.vec vb) opAddu

/-- `vsubu.vv` (R137). -/
def execVsubuVV (m : MaskSel) (vd va vb : VReg) (s : State) : Result :=
  s.elementwise m vd (.vec va) (.vec vb) opSubu

/-- `vabsdiff.vv` (R133). -/
def execVabsdiffVV (m : MaskSel) (vd va vb : VReg) (s : State) : Result :=
  s.elementwise m vd (.vec va) (.vec vb) opAbsdiff

/-- `vsra.vv` (R144). -/
def execVsraVV (m : MaskSel) (vd va vb : VReg) (s : State) : Result :=
  s.elementwise m vd (.vec va) (.vec vb) opSra

/-- `vdiv.vv` (R142). -/
def execVdivVV (m : MaskSel) (vd va vb : VReg) (s : State) : Result :=
  s.elementwise m vd (.vec va) (.vec vb) opDiv

/-- `vdivu.vv` (R143). -/
def execVdivuVV (m : MaskSel) (vd va vb : VReg) (s : State) : Result :=
  s.elementwise m vd (.vec va) (.vec vb) opDivu

/-- `vmax.vv` (R147). -/
def execVmaxVV (m : MaskSel) (vd va vb : VReg) (s : State) : Result :=
  s.elementwise m vd (.vec va) (.vec vb) opMax

/-- `vmin.vv` (R145). -/
def execVminVV (m : MaskSel) (vd va vb : VReg) (s : State) : Result :=
  s.elementwise m vd (.vec va) (.vec vb) opMin

/-- `vmulhi.vv` (R138). -/
def execVmulhiVV (m : MaskSel) (vd va vb : VReg) (s : State) : Result :=
  require s.cfg.vmult .featureOff (s.elementwise m vd (.vec va) (.vec vb) opMulhi)

/-- `vmullo.vv` (R140). -/
def execVmulloVV (m : MaskSel) (vd va vb : VReg) (s : State) : Result :=
  require s.cfg.vmult .featureOff (s.elementwise m vd (.vec va) (.vec vb) opMullo)

/-- `vmaxu.vv` (R148). -/
def execVmaxuVV (m : MaskSel) (vd va vb : VReg) (s : State) : Result :=
  s.elementwise m vd (.vec va) (.vec vb) opMaxu

/-- `vminu.vv` (R146). -/
def execVminuVV (m : MaskSel) (vd va vb : VReg) (s : State) : Result :=
  s.elementwise m vd (.vec va) (.vec vb) opMinu

/-- `vmulhiu.vv` (R139). -/
def execVmulhiuVV (m : MaskSel) (vd va vb : VReg) (s : State) : Result :=
  require s.cfg.vmult .featureOff (s.elementwise m vd (.vec va) (.vec vb) opMulhiu)

/-- `vmullou.vv` (R141). -/
def execVmullouVV (m : MaskSel) (vd va vb : VReg) (s : State) : Result :=
  require s.cfg.vmult .featureOff (s.elementwise m vd (.vec va) (.vec vb) opMullou)

/-- `vadd.vs` (R134). -/
def execVaddVS (m : MaskSel) (vd va : VReg) (rs : SReg) (s : State) : Result :=
  s.elementwise m vd (.vec va) (.scalar rs) opAdd

/-- `vsub.vs` (R136). -/
def execVsubVS (m : MaskSel) (vd va : VReg) (rs : SReg) (s : State) : Result :=
  s.elementwise m vd (.vec va) (.scalar rs) opSub

/-- `vaddu.vs` (R135). -/
def execVadduVS (m : MaskSel) (vd va : VReg) (rs : SReg) (s : State) : Result :=
  s.elementwise m vd (.vec va) (.scalar rs) opAddu

/-- `vsubu.vs` (R137). -/
def execVsubuVS (m : MaskSel) (vd va : VReg) (rs : SReg) (s : State) : Result :=
  s.elementwise m vd (.vec va) (.scalar rs) opSubu

/-- `vabsdiff.vs` (R133). -/
def execVabsdiffVS (m : MaskSel) (vd va : VReg) (rs : SReg) (s : State) : Result :=
  s.elementwise m vd (.vec va) (.scalar rs) opAbsdiff

/-- `vsra.vs` (R144). -/
def execVsraVS (m : MaskSel) (vd va : VReg) (rs : SReg) (s : State) : Result :=
  s.elementwise m vd (.vec va) (.scalar rs) opSra

/-- `vdiv.vs` (R142). -/
def execVdivVS (m : MaskSel) (vd va : VReg) (rs : SReg) (s : State) : Result :=
  s.elementwise m vd (.vec va) (.scalar rs) opDiv

/-- `vdivu.vs` (R143). -/
def execVdivuVS (m : MaskSel) (vd va : VReg) (rs : SReg) (s : State) : Result :=
  s.elementwise m vd (.vec va) (.scalar rs) opDivu

/-- `vmax.vs` (R147). -/
def execVmaxVS (m : MaskSel) (vd va : VReg) (rs : SReg) (s : State) : Result :=
  s.elementwise m vd (.vec va) (.scalar rs) opMax

/-- `vmin.vs` (R145). -/
def execVminVS (m : MaskSel) (vd va : VReg) (rs : SReg) (s : State) : Result :=
  s.elementwise m vd (.vec va) (.scalar rs) opMin

/-- `vmulhi.vs` (R138). -/
def execVmulhiVS (m : MaskSel) (vd va : VReg) (rs : SReg) (s : State) : Result :=
  require s.cfg.vmult .featureOff (s.elementwise m vd (.vec va) (.scalar rs) opMulhi)

/-- `vmullo.vs` (R140). -/
def execVmulloVS (m : MaskSel) (vd va : VReg) (rs : SReg) (s : State) : Result :=
  require s.cfg.vmult .featureOff (s.elementwise m vd (.vec va) (.scalar rs) opMullo)

/-- `vmaxu.vs` (R148). -/
def execVmaxuVS (m : MaskSel) (vd va : VReg) (rs : SReg) (s : State) : Result :=
  s.elementwise m vd (.vec va) (.scalar rs) opMaxu

/-- `vminu.vs` (R146). -/
def execVminuVS (m : MaskSel) (vd va : VReg) (rs : SReg) (s : State) : Result :=
  s.elementwise m vd (.vec va) (.scalar rs) opMinu

/-- `vmulhiu.vs` (R139). -/
def execVmulhiuVS (m : MaskSel) (vd va : VReg) (rs : SReg) (s : State) : Result :=
  require s.cfg.vmult .featureOff (s.elementwise m vd (.vec va) (.scalar rs) opMulhiu)

/-- `vmullou.vs` (R141). -/
def execVmullouVS (m : MaskSel) (vd va : VReg) (rs : SReg) (s : State) : Result :=
  require s.cfg.vmult .featureOff (s.elementwise m vd (.vec va) (.scalar rs) opMullou)

/-- `vsra.sv` (R144). -/
def execVsraSV (m : MaskSel) (vd : VReg) (rs : SReg) (vb : VReg) (s : State) : Result :=
  s.elementwise m vd (.scalar rs) (.vec vb) opSra

/-- `vsub.sv` (R136). -/
def execVsubSV (m : MaskSel) (vd : VReg) (rs : SReg) (vb : VReg) (s : State) : Result :=
  s.elementwise m vd (.scalar rs) (.vec vb) opSub

/-- `vdiv.sv` (R142). -/
def execVdivSV (m : MaskSel) (vd : VReg) (rs : SReg) (vb : VReg) (s : State) : Result :=
  s.elementwise m vd (.scalar rs) (.vec vb) opDiv

/-- `vsubu.sv` (R137). -/
def execVsubuSV (m : MaskSel) (vd : VReg) (rs : SReg) (vb : VReg) (s : State) : Result :=
  s.elementwise m vd (.scalar rs) (.vec vb) opSubu

/-- `vdivu.sv` (R143). -/
def execVdivuSV (m : MaskSel) (vd : VReg) (rs : SReg) (vb : VReg) (s : State) : Result :=
  s.elementwise m vd (.scalar rs) (.vec vb) opDivu

/-- `vabs.vv` (R132). -/
def execVabsVV (m : MaskSel) (vd va : VReg) (s : State) : Result :=
  s.elementwise m vd (.vec va) (.vec va) opAbs

/-- `vcmpeq.vv` (R149). -/
def execVcmpeqVV (m : MaskSel) (fd : FReg) (va vb : VReg) (s : State) : Result :=
  s.compare m fd (.vec va) (.vec vb) cmpEq

/-- `vcmplt.vv` (R151). -/
def execVcmpltVV (m : MaskSel) (fd : FReg) (va vb : VReg) (s : State) : Result :=
  s.compare m fd (.vec va) (.vec vb) cmpLt

/-- `vcmple.vv` (R153). -/
def execVcmpleVV (m : MaskSel) (fd : FReg) (va vb : VReg) (s : State) : Result :=
  s.compare m fd (.vec va) (.vec vb) cmpLe

/-- `vcmpneq.vv` (R150). -/
def execVcmpneqVV (m : MaskSel) (fd : FReg) (va vb : VReg) (s : State) : Result :=
  s.compare m fd (.vec va) (.vec vb) cmpNeq

/-- `vcmpltu.vv` (R152). -/
def execVcmpltuVV (m : MaskSel) (fd : FReg) (va vb : VReg) (s : State) : Result :=
  s.compare m fd (.vec va) (.vec vb) cmpLtu

/-- `vcmpleu.vv` (R154). -/
def execVcmpleuVV (m : MaskSel) (fd : FReg) (va vb : VReg) (s : State) : Result :=
  s.compare m fd (.vec va) (.vec vb) cmpLeu

/-- `vcmpeq.vs` (R149). -/
def execVcmpeqVS (m : MaskSel) (fd : FReg) (va : VReg) (rs : SReg) (s : State) : Result :=
  s.compare m fd (.vec va) (.scalar rs) cmpEq

/-- `vcmplt.vs` (R151). -/
def execVcmpltVS (m : MaskSel) (fd : FReg) (va : VReg) (rs : SReg) (s : State) : Result :=
  s.compare m fd (.vec va) (.scalar rs) cmpLt

/-- `vcmple.vs` (R153). -/
def execVcmpleVS (m : MaskSel) (fd : FReg) (va : VReg) (rs : SReg) (s : State) : Result :=
  s.compare m fd (.vec va) (.scalar rs) cmpLe

/-- `vcmpneq.vs` (R150). -/
def execVcmpneqVS (m : MaskSel) (fd : FReg) (va : VReg) (rs : SReg) (s : State) : Result :=
  s.compare m fd (.vec va) (.scalar rs) cmpNeq

/-- `vcmpltu.vs` (R152). -/
def execVcmpltuVS (m : MaskSel) (fd : FReg) (va : VReg) (rs : SReg) (s : State) : Result :=
  s.compare m fd (.vec va) (.scalar rs) cmpLtu

/-- `vcmpleu.vs` (R154). -/
def execVcmpleuVS (m : MaskSel) (fd : FReg) (va : VReg) (rs : SReg) (s : State) : Result :=
  s.compare m fd (.vec va) (.scalar rs) cmpLeu

/-- `vcmplt.sv` (R151). -/
def execVcmpltSV (m : MaskSel) (fd : FReg) (rs : SReg) (vb : VReg) (s : State) : Result :=
  s.compare m fd (.scalar rs) (.vec vb) cmpLt

/-- `vcmple.sv` (R153). -/
def execVcmpleSV (m : MaskSel) (fd : FReg) (rs : SReg) (vb : VReg) (s : State) : Result :=
  s.compare m fd (.scalar rs) (.vec vb) cmpLe

/-- `vcmpltu.sv` (R152). -/
def execVcmpltuSV (m : MaskSel) (fd : FReg) (rs : SReg) (vb : VReg) (s : State) : Result :=
  s.compare m fd (.scalar rs) (.vec vb) cmpLtu

/-- `vcmpleu.sv` (R154). -/
def execVcmpleuSV (m : MaskSel) (fd : FReg) (rs : SReg) (vb : VReg) (s : State) : Result :=
  s.compare m fd (.scalar rs) (.vec vb) cmpLeu

/-- `vmac.vv` (R163). -/
def execVmacVV (m : MaskSel) (va vb : VReg) (s : State) : Result :=
  s.multiplyAccumulate true m (.vec va) (.vec vb)

/-- `vmac.vs` (R163). -/
def execVmacVS (m : MaskSel) (va : VReg) (rs : SReg) (s : State) : Result :=
  s.multiplyAccumulate true m (.vec va) (.scalar rs)

/-- `vmacu.vv` (R164). -/
def execVmacuVV (m : MaskSel) (va vb : VReg) (s : State) : Result :=
  s.multiplyAccumulate false m (.vec va) (.vec vb)

/-- `vmacu.vs` (R164). -/
def execVmacuVS (m : MaskSel) (va : VReg) (rs : SReg) (s : State) : Result :=
  s.multiplyAccumulate false m (.vec va) (.scalar rs)

/-- `vccacc` (R165). -/
def execVccacc (vd : VReg) (s : State) : Result :=
  require (macAvailable s.cfg) .featureOff (s.copyPartials vd s.chainLow).finish

/-- `vcczacc` (R166). -/
def execVcczacc (vd : VReg) (s : State) : Result :=
  require (macAvailable s.cfg) .featureOff
    (s.copyPartials vd (s.firstClearing s.chainLow)).zeroAccumulators.finish

end Sys2Proof.Machine
end

