-- ==== Sys2Proof/Machine/Logical.lean ====
section
/-! DEFINITION. The logical instructions (41_logical.md). -/

namespace Sys2Proof.Machine

/-- `vand.vv` (R170). -/
def execVandVV (m : MaskSel) (vd va vb : VReg) (s : State) : Result :=
  s.elementwise m vd (.vec va) (.vec vb) opAnd

/-- `vor.vv` (R171). -/
def execVorVV (m : MaskSel) (vd va vb : VReg) (s : State) : Result :=
  s.elementwise m vd (.vec va) (.vec vb) opOr

/-- `vxor.vv` (R172). -/
def execVxorVV (m : MaskSel) (vd va vb : VReg) (s : State) : Result :=
  s.elementwise m vd (.vec va) (.vec vb) opXor

/-- `vsll.vv` (R173). -/
def execVsllVV (m : MaskSel) (vd va vb : VReg) (s : State) : Result :=
  s.elementwise m vd (.vec va) (.vec vb) opSll

/-- `vsrl.vv` (R174). -/
def execVsrlVV (m : MaskSel) (vd va vb : VReg) (s : State) : Result :=
  s.elementwise m vd (.vec va) (.vec vb) opSrl

/-- `vrot.vv` (R175). -/
def execVrotVV (m : MaskSel) (vd va vb : VReg) (s : State) : Result :=
  s.elementwise m vd (.vec va) (.vec vb) opRot

/-- `vand.vs` (R170). -/
def execVandVS (m : MaskSel) (vd va : VReg) (rs : SReg) (s : State) : Result :=
  s.elementwise m vd (.vec va) (.scalar rs) opAnd

/-- `vor.vs` (R171). -/
def execVorVS (m : MaskSel) (vd va : VReg) (rs : SReg) (s : State) : Result :=
  s.elementwise m vd (.vec va) (.scalar rs) opOr

/-- `vxor.vs` (R172). -/
def execVxorVS (m : MaskSel) (vd va : VReg) (rs : SReg) (s : State) : Result :=
  s.elementwise m vd (.vec va) (.scalar rs) opXor

/-- `vsll.vs` (R173). -/
def execVsllVS (m : MaskSel) (vd va : VReg) (rs : SReg) (s : State) : Result :=
  s.elementwise m vd (.vec va) (.scalar rs) opSll

/-- `vsrl.vs` (R174). -/
def execVsrlVS (m : MaskSel) (vd va : VReg) (rs : SReg) (s : State) : Result :=
  s.elementwise m vd (.vec va) (.scalar rs) opSrl

/-- `vrot.vs` (R175). -/
def execVrotVS (m : MaskSel) (vd va : VReg) (rs : SReg) (s : State) : Result :=
  s.elementwise m vd (.vec va) (.scalar rs) opRot

/-- `vsll.sv` (R173). -/
def execVsllSV (m : MaskSel) (vd : VReg) (rs : SReg) (vb : VReg) (s : State) : Result :=
  s.elementwise m vd (.scalar rs) (.vec vb) opSll

/-- `vsrl.sv` (R174). -/
def execVsrlSV (m : MaskSel) (vd : VReg) (rs : SReg) (vb : VReg) (s : State) : Result :=
  s.elementwise m vd (.scalar rs) (.vec vb) opSrl

/-- `vrot.sv` (R175). -/
def execVrotSV (m : MaskSel) (vd : VReg) (rs : SReg) (vb : VReg) (s : State) : Result :=
  s.elementwise m vd (.scalar rs) (.vec vb) opRot

end Sys2Proof.Machine
end

