-- ==== Sys2Proof/Machine/FixedPoint.lean ====
section
/-! DEFINITION. The fixed-point instructions, a future extension that the parameter
`FixedPoint` adds (42_fixed_point.md). -/

namespace Sys2Proof.Machine

/-- With `FixedPoint` Off every instruction of the family is refused (R180). -/
def State.fixedPoint (s : State) (k : Result) : Result :=
  require s.cfg.fixedPoint .fixedPointNotImplemented k

/-- The fixed-point shift amount `n = u(C[3])` (R181). -/
def State.shiftAmount (s : State) : Nat := s.vshamt.toNat

/-- `vsadd.vv` (R185). -/
def execVsaddVV (m : MaskSel) (vd va vb : VReg) (s : State) : Result :=
  s.fixedPoint (s.elementwise m vd (.vec va) (.vec vb) opSadd)

/-- `vssub.vv` (R187). -/
def execVssubVV (m : MaskSel) (vd va vb : VReg) (s : State) : Result :=
  s.fixedPoint (s.elementwise m vd (.vec va) (.vec vb) opSsub)

/-- `vsat` (R182). -/
def execVsat (n : Width) (m : MaskSel) (vd va : VReg) (s : State) : Result :=
  s.fixedPoint (require (n.bits < s.cfg.w) .widthNotAvailable
    (s.elementwise m vd (.vec va) (.vec va) (opSat n)))

/-- `vsrr` (R189). -/
def execVsrr (m : MaskSel) (vd va : VReg) (s : State) : Result :=
  s.fixedPoint (s.elementwise m vd (.vec va) (.vec va) (opSrr s.shiftAmount))

/-- `vsls` (R191). -/
def execVsls (m : MaskSel) (vd va : VReg) (s : State) : Result :=
  s.fixedPoint (s.elementwise m vd (.vec va) (.vec va) (opSls s.shiftAmount))

/-- `vxmulhi.vv` (R193). -/
def execVxmulhiVV (m : MaskSel) (vd va vb : VReg) (s : State) : Result :=
  s.fixedPoint (require s.cfg.vmult .featureOff
    (s.elementwise m vd (.vec va) (.vec vb) (opXmulhi s.shiftAmount)))

/-- `vxmullo.vv` (R195). -/
def execVxmulloVV (m : MaskSel) (vd va vb : VReg) (s : State) : Result :=
  s.fixedPoint (require s.cfg.vmult .featureOff
    (s.elementwise m vd (.vec va) (.vec vb) (opXmullo s.shiftAmount)))

/-- `vsaddu.vv` (R186). -/
def execVsadduVV (m : MaskSel) (vd va vb : VReg) (s : State) : Result :=
  s.fixedPoint (s.elementwise m vd (.vec va) (.vec vb) opSaddu)

/-- `vssubu.vv` (R188). -/
def execVssubuVV (m : MaskSel) (vd va vb : VReg) (s : State) : Result :=
  s.fixedPoint (s.elementwise m vd (.vec va) (.vec vb) opSsubu)

/-- `vsatu` (R183). -/
def execVsatu (n : Width) (m : MaskSel) (vd va : VReg) (s : State) : Result :=
  s.fixedPoint (require (n.bits < s.cfg.w) .widthNotAvailable
    (s.elementwise m vd (.vec va) (.vec va) (opSatu n)))

/-- `vsrru` (R190). -/
def execVsrru (m : MaskSel) (vd va : VReg) (s : State) : Result :=
  s.fixedPoint (s.elementwise m vd (.vec va) (.vec va) (opSrru s.shiftAmount))

/-- `vslsu` (R192). -/
def execVslsu (m : MaskSel) (vd va : VReg) (s : State) : Result :=
  s.fixedPoint (s.elementwise m vd (.vec va) (.vec va) (opSlsu s.shiftAmount))

/-- `vxmulhiu.vv` (R194). -/
def execVxmulhiuVV (m : MaskSel) (vd va vb : VReg) (s : State) : Result :=
  s.fixedPoint (require s.cfg.vmult .featureOff
    (s.elementwise m vd (.vec va) (.vec vb) (opXmulhiu s.shiftAmount)))

/-- `vxmullou.vv` (R196). -/
def execVxmullouVV (m : MaskSel) (vd va vb : VReg) (s : State) : Result :=
  s.fixedPoint (require s.cfg.vmult .featureOff
    (s.elementwise m vd (.vec va) (.vec vb) (opXmullou s.shiftAmount)))

/-- `vxccacc` (R197). -/
def execVxccacc (vd : VReg) (s : State) : Result :=
  s.fixedPoint (require (macAvailable s.cfg) .featureOff
    (s.copyPartials vd s.chainSaturated).finish)

/-- `vsatsu` (R184). -/
def execVsatsu (n : Width) (m : MaskSel) (vd va : VReg) (s : State) : Result :=
  s.fixedPoint (require (n.bits ≤ s.cfg.w) .widthNotAvailable
    (s.elementwise m vd (.vec va) (.vec va) (opSatsu n)))

/-- `vxcczacc` (R198). -/
def execVxcczacc (vd : VReg) (s : State) : Result :=
  s.fixedPoint (require (macAvailable s.cfg) .featureOff
    (s.copyPartials vd (s.firstClearing s.chainSaturated)).zeroAccumulators.finish)

/-- `vsadd.vs` (R185). -/
def execVsaddVS (m : MaskSel) (vd va : VReg) (rs : SReg) (s : State) : Result :=
  s.fixedPoint (s.elementwise m vd (.vec va) (.scalar rs) opSadd)

/-- `vssub.vs` (R187). -/
def execVssubVS (m : MaskSel) (vd va : VReg) (rs : SReg) (s : State) : Result :=
  s.fixedPoint (s.elementwise m vd (.vec va) (.scalar rs) opSsub)

/-- `vxmulhi.vs` (R193). -/
def execVxmulhiVS (m : MaskSel) (vd va : VReg) (rs : SReg) (s : State) : Result :=
  s.fixedPoint (require s.cfg.vmult .featureOff
    (s.elementwise m vd (.vec va) (.scalar rs) (opXmulhi s.shiftAmount)))

/-- `vxmullo.vs` (R195). -/
def execVxmulloVS (m : MaskSel) (vd va : VReg) (rs : SReg) (s : State) : Result :=
  s.fixedPoint (require s.cfg.vmult .featureOff
    (s.elementwise m vd (.vec va) (.scalar rs) (opXmullo s.shiftAmount)))

/-- `vsaddu.vs` (R186). -/
def execVsadduVS (m : MaskSel) (vd va : VReg) (rs : SReg) (s : State) : Result :=
  s.fixedPoint (s.elementwise m vd (.vec va) (.scalar rs) opSaddu)

/-- `vssubu.vs` (R188). -/
def execVssubuVS (m : MaskSel) (vd va : VReg) (rs : SReg) (s : State) : Result :=
  s.fixedPoint (s.elementwise m vd (.vec va) (.scalar rs) opSsubu)

/-- `vxmulhiu.vs` (R194). -/
def execVxmulhiuVS (m : MaskSel) (vd va : VReg) (rs : SReg) (s : State) : Result :=
  s.fixedPoint (require s.cfg.vmult .featureOff
    (s.elementwise m vd (.vec va) (.scalar rs) (opXmulhiu s.shiftAmount)))

/-- `vxmullou.vs` (R196). -/
def execVxmullouVS (m : MaskSel) (vd va : VReg) (rs : SReg) (s : State) : Result :=
  s.fixedPoint (require s.cfg.vmult .featureOff
    (s.elementwise m vd (.vec va) (.scalar rs) (opXmullou s.shiftAmount)))

/-- `vssub.sv` (R187). -/
def execVssubSV (m : MaskSel) (vd : VReg) (rs : SReg) (vb : VReg) (s : State) : Result :=
  s.fixedPoint (s.elementwise m vd (.scalar rs) (.vec vb) opSsub)

/-- `vssubu.sv` (R188). -/
def execVssubuSV (m : MaskSel) (vd : VReg) (rs : SReg) (vb : VReg) (s : State) : Result :=
  s.fixedPoint (s.elementwise m vd (.scalar rs) (.vec vb) opSsubu)

end Sys2Proof.Machine
end

