-- ==== Sys2Proof/Machine/MainMemory.lean ====
section
/-! DEFINITION. The instructions of main memory (43_memory_instructions.md): unit stride,
constant stride, indexed, and the flag load and store. -/

namespace Sys2Proof.Machine

/-- `vld.b` (R213). -/
def execVldB (m : MaskSel) (vd : VReg) (vb : VBase) (vi : VInc) (s : State) : Result :=
    s.load .b true m vd vb (s.unitAddr vb .b) (·.autoIncrement vb vi)

/-- `vst.b` (R215). -/
def execVstB (m : MaskSel) (va : VReg) (vb : VBase) (vi : VInc) (s : State) : Result :=
    s.store .b m va vb (s.unitAddr vb .b) (s.activeVPs m) (·.autoIncrement vb vi)

/-- `vlds.b` (R216). -/
def execVldsB (m : MaskSel) (vd : VReg) (vb : VBase) (vs : VStride) (vi : VInc) (s : State) : Result :=
    s.load .b true m vd vb (s.strideAddr vb vs .b) (·.autoIncrement vb vi)

/-- `vsts.b` (R218). -/
def execVstsB (m : MaskSel) (va : VReg) (vb : VBase) (vs : VStride) (vi : VInc) (s : State) : Result :=
    s.store .b m va vb (s.strideAddr vb vs .b) (s.activeVPs m) (·.autoIncrement vb vi)

/-- `vldx.b` (R219). -/
def execVldxB (m : MaskSel) (vd vo : VReg) (vb : VBase) (s : State) : Result :=
    s.load .b true m vd vb (s.indexAddr vb vo) id

/-- `vstxu.b` (R221). -/
def execVstxuB (m : MaskSel) (va vo : VReg) (vb : VBase) (s : State) : Result :=
  s.store .b m va vb (s.indexAddr vb vo)
    (s.anyOrder (s.indexAddr vb vo) (s.activeVPs m)) (·.useDraws)

/-- `vstx.b` (R222). -/
def execVstxB (m : MaskSel) (va vo : VReg) (vb : VBase) (s : State) : Result :=
    s.store .b m va vb (s.indexAddr vb vo) (s.activeVPs m) id

/-- `vldu.b` (R214). -/
def execVlduB (m : MaskSel) (vd : VReg) (vb : VBase) (vi : VInc) (s : State) : Result :=
    s.load .b false m vd vb (s.unitAddr vb .b) (·.autoIncrement vb vi)

/-- `vldsu.b` (R217). -/
def execVldsuB (m : MaskSel) (vd : VReg) (vb : VBase) (vs : VStride) (vi : VInc) (s : State) : Result :=
    s.load .b false m vd vb (s.strideAddr vb vs .b) (·.autoIncrement vb vi)

/-- `vldxu.b` (R220). -/
def execVldxuB (m : MaskSel) (vd vo : VReg) (vb : VBase) (s : State) : Result :=
    s.load .b false m vd vb (s.indexAddr vb vo) id

/-- `vld.h` (R213). -/
def execVldH (m : MaskSel) (vd : VReg) (vb : VBase) (vi : VInc) (s : State) : Result :=
    s.load .h true m vd vb (s.unitAddr vb .h) (·.autoIncrement vb vi)

/-- `vst.h` (R215). -/
def execVstH (m : MaskSel) (va : VReg) (vb : VBase) (vi : VInc) (s : State) : Result :=
    s.store .h m va vb (s.unitAddr vb .h) (s.activeVPs m) (·.autoIncrement vb vi)

/-- `vlds.h` (R216). -/
def execVldsH (m : MaskSel) (vd : VReg) (vb : VBase) (vs : VStride) (vi : VInc) (s : State) : Result :=
    s.load .h true m vd vb (s.strideAddr vb vs .h) (·.autoIncrement vb vi)

/-- `vsts.h` (R218). -/
def execVstsH (m : MaskSel) (va : VReg) (vb : VBase) (vs : VStride) (vi : VInc) (s : State) : Result :=
    s.store .h m va vb (s.strideAddr vb vs .h) (s.activeVPs m) (·.autoIncrement vb vi)

/-- `vldx.h` (R219). -/
def execVldxH (m : MaskSel) (vd vo : VReg) (vb : VBase) (s : State) : Result :=
    s.load .h true m vd vb (s.indexAddr vb vo) id

/-- `vstxu.h` (R221). -/
def execVstxuH (m : MaskSel) (va vo : VReg) (vb : VBase) (s : State) : Result :=
  s.store .h m va vb (s.indexAddr vb vo)
    (s.anyOrder (s.indexAddr vb vo) (s.activeVPs m)) (·.useDraws)

/-- `vstx.h` (R222). -/
def execVstxH (m : MaskSel) (va vo : VReg) (vb : VBase) (s : State) : Result :=
    s.store .h m va vb (s.indexAddr vb vo) (s.activeVPs m) id

/-- `vldu.h` (R214). -/
def execVlduH (m : MaskSel) (vd : VReg) (vb : VBase) (vi : VInc) (s : State) : Result :=
    s.load .h false m vd vb (s.unitAddr vb .h) (·.autoIncrement vb vi)

/-- `vldsu.h` (R217). -/
def execVldsuH (m : MaskSel) (vd : VReg) (vb : VBase) (vs : VStride) (vi : VInc) (s : State) : Result :=
    s.load .h false m vd vb (s.strideAddr vb vs .h) (·.autoIncrement vb vi)

/-- `vldxu.h` (R220). -/
def execVldxuH (m : MaskSel) (vd vo : VReg) (vb : VBase) (s : State) : Result :=
    s.load .h false m vd vb (s.indexAddr vb vo) id

/-- `vld.w` (R213). -/
def execVldW (m : MaskSel) (vd : VReg) (vb : VBase) (vi : VInc) (s : State) : Result :=
    s.load .w true m vd vb (s.unitAddr vb .w) (·.autoIncrement vb vi)

/-- `vst.w` (R215). -/
def execVstW (m : MaskSel) (va : VReg) (vb : VBase) (vi : VInc) (s : State) : Result :=
    s.store .w m va vb (s.unitAddr vb .w) (s.activeVPs m) (·.autoIncrement vb vi)

/-- `vlds.w` (R216). -/
def execVldsW (m : MaskSel) (vd : VReg) (vb : VBase) (vs : VStride) (vi : VInc) (s : State) : Result :=
    s.load .w true m vd vb (s.strideAddr vb vs .w) (·.autoIncrement vb vi)

/-- `vsts.w` (R218). -/
def execVstsW (m : MaskSel) (va : VReg) (vb : VBase) (vs : VStride) (vi : VInc) (s : State) : Result :=
    s.store .w m va vb (s.strideAddr vb vs .w) (s.activeVPs m) (·.autoIncrement vb vi)

/-- `vldx.w` (R219). -/
def execVldxW (m : MaskSel) (vd vo : VReg) (vb : VBase) (s : State) : Result :=
    s.load .w true m vd vb (s.indexAddr vb vo) id

/-- `vstxu.w` (R221). -/
def execVstxuW (m : MaskSel) (va vo : VReg) (vb : VBase) (s : State) : Result :=
  s.store .w m va vb (s.indexAddr vb vo)
    (s.anyOrder (s.indexAddr vb vo) (s.activeVPs m)) (·.useDraws)

/-- `vstx.w` (R222). -/
def execVstxW (m : MaskSel) (va vo : VReg) (vb : VBase) (s : State) : Result :=
    s.store .w m va vb (s.indexAddr vb vo) (s.activeVPs m) id

/-- `vfld` (R225): `K` bytes; element `i` is bit `i mod 8` of byte `i / 8`; the elements from `VL` to
`8K - 1` are draws, those beyond keep their values. -/
def execVfld (fd : FReg) (vb : VBase) (vi : VInc) (s : State) : Result :=
  requireFlags [fd]
    (unlessFault (s.accessFaults vb (s.cfg.w / 8) 1 (List.range s.flagBytes) (s.flagAddr vb))
      (.next ((s.setF fd fun i =>
        if i < s.vlen then (s.mem.read (s.flagAddr vb (i / 8)).toNat).getLsbD (i % 8)
        else if i < 8 * s.flagBytes then (s.draw .flagLoadPad i).getLsbD 0
        else s.felem fd i).autoIncrement vb vi).useDraws.advance))

/-- `vfst` (R226): `K` bytes, the bits at `VL` and above draws; the refusals of R211 step 1 come
before its faults. -/
def execVfst (fd : FReg) (vb : VBase) (vi : VInc) (s : State) : Result :=
  requireFlags [fd]
    (s.avoidingCode 1 (List.range s.flagBytes) (s.flagAddr vb)
      (unlessFault (s.accessFaults vb (s.cfg.w / 8) 1 (List.range s.flagBytes) (s.flagAddr vb))
        (.next ({ s with
          mem := (List.range s.flagBytes).foldl
            (fun mem j => mem.write (s.flagAddr vb j).toNat (s.flagStoreByte fd j))
            s.mem }.autoIncrement vb vi).useDraws.advance)))

end Sys2Proof.Machine
end

