-- ==== Sys2Proof/Machine/LocalMemory.lean ====
section
/-! DEFINITION. The vector lane local memory (10_state.md rule R41;
43_memory_instructions.md section 5). -/

namespace Sys2Proof.Machine

/-- `lane(i) = i mod NLane` (R41). -/
def laneOf (c : Config) (i : Nat) : Nat := i % c.nLane

/-- The block that VP `i` reaches: its own section, or with `LMemShare` the block of its lane (R41). -/
def localBlock (c : Config) (i : Nat) : Nat := if c.lMemShare then laneOf c i else i

/-- The number of words of a section, `S = floor(LMemN * NLane / MVL)`, or of a block (R41). -/
def localWords (c : Config) : Nat := if c.lMemShare then c.lMemN else c.lMemN * c.nLane / c.mvl

/-- The key under which the word `a` of a block is listed; a word address is below `2^32`. -/
def localKey (block a : Nat) : Nat := block * 2 ^ 32 + a

/-- `LM(i, a)` of R230; none if nothing has written the word since reset. -/
def State.localRead (s : State) (i a : Nat) : Option Elem :=
  cellGet (localKey (localBlock s.cfg i) a) s.lmem

/-- The word address of VP `i`: `u(V[vA][i])` (R230). -/
def State.localAddr (s : State) (va : VReg) (i : Nat) : Nat :=
  ((s.velem va i).setWidth s.cfg.w).toNat

/-- The range check of R230 for one VP. -/
def State.localRangeFault (s : State) (va : VReg) (i : Nat) : Option Fault :=
  if s.localAddr va i < localWords s.cfg then none else some (.localMemRange i (s.localAddr va i))

/-- The checks of a local load for one VP: the range, then that the word was written (R230). -/
def State.localLoadFault (s : State) (va : VReg) (i : Nat) : Option Fault :=
  (s.localRangeFault va i).or
    (if (s.localRead i (s.localAddr va i)).isSome then none
      else some (.readBeforeWrite i (s.localAddr va i)))

/-- Local memory after the given VPs store, one after the other (R224). -/
def State.localStores (s : State) (va : VReg) (b : Source) (vps : List Nat) : LocalMemory :=
  vps.foldl (fun lm i =>
    cellPut (localKey (localBlock s.cfg i) (s.localAddr va i)) (truncElem s.cfg (s.source b i)) lm)
    s.lmem

/-- A local store of the active VPs (R224, R230). -/
def State.localStore (s : State) (m : MaskSel) (va : VReg) (b : Source) : Result :=
  require (s.cfg.lMemN != 0) .featureOff
    (require (!(s.cfg.lMemShare && s.cfg.nLane < s.vlen)) .sharedLocalWrite
      (unlessFault ((s.activeVPs m).findSome? (s.localRangeFault va))
        (.next { s with lmem := s.localStores va b (s.activeVPs m) }.advance)))

/-- `vldl.vv` (R223). -/
def execVldlVV (m : MaskSel) (vd va : VReg) (s : State) : Result :=
  require (s.cfg.lMemN != 0) .featureOff
    (unlessFault ((s.activeVPs m).findSome? (s.localLoadFault va))
      (.next (s.setV vd fun i =>
        if s.active m i then (s.localRead i (s.localAddr va i)).getD 0 else s.velem vd i).advance))

/-- `vstl.vv` (R224). -/
def execVstlVV (m : MaskSel) (va vb : VReg) (s : State) : Result :=
  s.localStore m va (.vec vb)

/-- `vstl.vs` (R224). -/
def execVstlVS (m : MaskSel) (va : VReg) (rs : SReg) (s : State) : Result :=
  s.localStore m va (.scalar rs)

end Sys2Proof.Machine
end

