-- ==== Sys2Proof/Machine/VectorProcessing.lean ====
section
/-! DEFINITION. The vector processing instructions (44_vector_processing.md). -/

namespace Sys2Proof.Machine

/-- `vmerge`: every VP below `VL` writes, and the mask bit chooses the source (R241). -/
def State.merge (s : State) (m : MaskSel) (vd : VReg) (a b : Source) : Result :=
  (s.setV vd fun i =>
    if i < s.vlen then (if s.felem (maskFlag m) i then s.source b i else s.source a i)
    else s.velem vd i).finish

/-- `vmerge.vv` (R241). -/
def execVmergeVV (m : MaskSel) (vd va vb : VReg) (s : State) : Result :=
  s.merge m vd (.vec va) (.vec vb)

/-- `vmerge.vs` (R241). -/
def execVmergeVS (m : MaskSel) (vd va : VReg) (rs : SReg) (s : State) : Result :=
  s.merge m vd (.vec va) (.scalar rs)

/-- `vmerge.sv` (R241). -/
def execVmergeSV (m : MaskSel) (vd : VReg) (rs : SReg) (vb : VReg) (s : State) : Result :=
  s.merge m vd (.scalar rs) (.vec vb)

/-- The refusals that `vins.vv` and `vext.vv` share, in the order of R293 (R242, R243). -/
def State.transfer (s : State) (vd va : VReg) (k : Result) : Result :=
  require s.cfg.vmanip .featureOff
    (require (vd != va) .sameRegister
      (require (s.elementIndex + s.vlen ≤ s.cfg.mvl) .insertExtractOutOfRange k))

/-- `vins.vv` (R242): `V[vD][s + i] <- V[vA][i]` for `i` below `VL`. -/
def execVinsVV (vd va : VReg) (s : State) : Result :=
  s.transfer vd va
    (s.setV vd fun i =>
      if s.elementIndex ≤ i ∧ i < s.elementIndex + s.vlen then s.velem va (i - s.elementIndex)
      else s.velem vd i).finish

/-- `vext.vv` (R243): `V[vD][i] <- V[vA][s + i]` for `i` below `VL`. -/
def execVextVV (vd va : VReg) (s : State) : Result :=
  s.transfer vd va
    (s.setV vd fun i =>
      if i < s.vlen then s.velem va (s.elementIndex + i) else s.velem vd i).finish

/-- `vins.vs` (R244): not masked, `VL` not used. -/
def execVinsVS (vd : VReg) (rs : SReg) (s : State) : Result :=
  (s.setV vd fun i =>
    if i = s.elementIndex then truncElem s.cfg (s.xreg rs) else s.velem vd i).finish

/-- `vext.vs` (R245): `x[rS] <- sext_32(V[vA][s])`. -/
def execVextVS (rs : SReg) (va : VReg) (s : State) : Result :=
  (s.setX rs (((s.velem va s.elementIndex).setWidth s.cfg.w).signExtend 32)).finish

/-- `vextu.vs` (R246): `x[rS] <- zext_32(V[vA][s])`. -/
def execVextuVS (rs : SReg) (va : VReg) (s : State) : Result :=
  (s.setX rs (((s.velem va s.elementIndex).setWidth s.cfg.w).setWidth 32)).finish

/-- `vcomp` (R247): the active elements of `vA` go to the front of `vD`, the rest of `vD` is left. -/
def execVcomp (m : MaskSel) (vd va : VReg) (s : State) : Result :=
  require (vd != va) .sameRegister
    (s.setV vd fun k =>
      match (s.activeVPs m)[k]? with
      | some i => s.velem va i
      | none => s.velem vd k).finish

/-- The number of active VPs below `i`: the place in `vA` that `vexpand` reads for VP `i` (R248). -/
def State.activeBelow (s : State) (m : MaskSel) (i : Nat) : Nat :=
  ((List.range i).filter (s.active m)).length

/-- `vexpand` (R248): the first elements of `vA` go to the active positions of `vD`. -/
def execVexpand (m : MaskSel) (vd va : VReg) (s : State) : Result :=
  require (vd != va) .sameRegister
    (s.setV vd fun i =>
      if s.active m i then s.velem va (s.activeBelow m i) else s.velem vd i).finish

/-- `vupshift` (R249): `vD[i] = vA[i+1]`, the first element wraps to the last; `VL` and the masks are
not used. -/
def execVupshift (vd va : VReg) (s : State) : Result :=
  require s.cfg.vupshift .featureOff
    (s.setV vd fun i => s.velem va (if i + 1 < s.cfg.mvl then i + 1 else 0)).finish

end Sys2Proof.Machine
end

