-- ==== Sys2Proof/Machine/FlagProcessing.lean ====
section
/-! DEFINITION. The vector flag processing instructions (45_flag_processing.md). None is
masked, and none disturbs `$vf16`, `$vf17` but by naming them (R260). -/

namespace Sys2Proof.Machine

/-- A flag instruction on the elements below `VL` (R262 to R267): element `i` takes `g i`. -/
def State.flagLoop (s : State) (fd : FReg) (named : List FReg) (g : Nat → Bool) : Result :=
  requireFlags (fd :: named)
    (.next (s.setF fd fun i => if i < s.vlen then g i else s.felem fd i).advance)

/-- A flag logical operation of two sources (R262 to R265). -/
def State.flagLogical (s : State) (fd fa : FReg) (b : FlagSource) (op : Bool → Bool → Bool) : Result :=
  s.flagLoop fd (fa :: b.flags) fun i => op (s.felem fa i) (s.flagSource b i)

/-- A set-before, set-including or set-only instruction: below `VL` the flag is `g p i` for the first
set bit `p` of the source; the elements from `VL` on are draws (R275). -/
def State.flagScan (s : State) (fd fa : FReg) (g : Nat → Nat → Bool) : Result :=
  requireFlags [fd, fa]
    (.next (s.setF fd fun i =>
      if i < s.vlen then g (s.firstSet fa) i else (s.draw .flagScanTail i).getLsbD 0).useDraws.advance)

/-- A counting or searching instruction: the result goes to a scalar register (R274). -/
def State.flagSearch (s : State) (rs : SReg) (fa : FReg) (n : Nat) : Result :=
  requireFlags [fa] (.next (s.setX rs (BitVec.ofNat 32 n)).advance)

/-- `vfand.vv` (R262). -/
def execVfandVV (fd fa fb : FReg) (s : State) : Result :=
  s.flagLogical fd fa (.flag fb) (fun a b => a && b)

/-- `vfnor.vv` (R265). -/
def execVfnorVV (fd fa fb : FReg) (s : State) : Result :=
  s.flagLogical fd fa (.flag fb) (fun a b => !(a || b))

/-- `vfor.vv` (R263). -/
def execVforVV (fd fa fb : FReg) (s : State) : Result :=
  s.flagLogical fd fa (.flag fb) (fun a b => a || b)

/-- `vfxor.vv` (R264). -/
def execVfxorVV (fd fa fb : FReg) (s : State) : Result :=
  s.flagLogical fd fa (.flag fb) (fun a b => a != b)

/-- `vfand.vs` (R262). -/
def execVfandVS (fd fa : FReg) (rs : SReg) (s : State) : Result :=
  s.flagLogical fd fa (.scalar rs) (fun a b => a && b)

/-- `vfnor.vs` (R265). -/
def execVfnorVS (fd fa : FReg) (rs : SReg) (s : State) : Result :=
  s.flagLogical fd fa (.scalar rs) (fun a b => !(a || b))

/-- `vfor.vs` (R263). -/
def execVforVS (fd fa : FReg) (rs : SReg) (s : State) : Result :=
  s.flagLogical fd fa (.scalar rs) (fun a b => a || b)

/-- `vfxor.vs` (R264). -/
def execVfxorVS (fd fa : FReg) (rs : SReg) (s : State) : Result :=
  s.flagLogical fd fa (.scalar rs) (fun a b => a != b)

/-- `vfclr` (R266). -/
def execVfclr (fd : FReg) (s : State) : Result :=
  s.flagLoop fd [] fun _ => false

/-- `vfset` (R267). -/
def execVfset (fd : FReg) (s : State) : Result :=
  s.flagLoop fd [] fun _ => true

/-- `vfins.vs` (R261): `F[vF][vindex mod MVL] <- x[rS][0]`, `VL` not used. -/
def execVfinsVS (fd : FReg) (rs : SReg) (s : State) : Result :=
  requireFlags [fd]
    (.next (s.setF fd fun i =>
      if i = s.elementIndex then (s.xreg rs).getLsbD 0 else s.felem fd i).advance)

/-- `vfpop` (R268): no word decodes to it; what the rule says it would do. -/
def execVfpop (rs : SReg) (fa : FReg) (s : State) : Result :=
  s.flagSearch rs fa (s.setBits fa).length

/-- `vfff1` (R269). -/
def execVfff1 (rs : SReg) (fa : FReg) (s : State) : Result :=
  s.flagSearch rs fa (s.firstSet fa)

/-- `vffl1` (R270). -/
def execVffl1 (rs : SReg) (fa : FReg) (s : State) : Result :=
  s.flagSearch rs fa (s.lastSet fa)

/-- `vfsetbf` (R271). -/
def execVfsetbf (fd fa : FReg) (s : State) : Result :=
  s.flagScan fd fa fun p i => decide (i < p)

/-- `vfsetif` (R272). -/
def execVfsetif (fd fa : FReg) (s : State) : Result :=
  s.flagScan fd fa fun p i => decide (i ≤ p)

/-- `vfsetof` (R273). -/
def execVfsetof (fd fa : FReg) (s : State) : Result :=
  s.flagScan fd fa fun p i => decide (i = p)

end Sys2Proof.Machine
end

