-- ==== Sys2Proof/Machine/Miscellaneous.lean ====
section
/-! DEFINITION. The control register moves (46_miscellaneous.md). Neither is masked, uses
`VL`, or disturbs `$vf16`, `$vf17` (R280, R281). -/

namespace Sys2Proof.Machine

/-- `vmstc` (R280): all 32 bits of `x[rS]` are copied, after the refusals in the order of the rule. -/
def execVmstc (vc : CReg) (rs : SReg) (s : State) : Result :=
  require (!reservedCreg vc) .reservedControlRegister
    (require (!staticCreg vc) .staticControlRegister
      (require (!(vc.val == 0 && s.cfg.mvl < (s.xreg rs).toNat)) .vlOutOfRange
        (.next (s.setCreg vc (s.xreg rs)).advance)))

/-- `vmcts` (R281): the control register is copied to `x[rS]`. -/
def execVmcts (rs : SReg) (vc : CReg) (s : State) : Result :=
  match s.creg vc with
  | none => .refused .reservedControlRegister
  | some a => .next (s.setX rs a).advance

end Sys2Proof.Machine
end

