-- ==== Sys2Proof/Machine/Dispatch.lean ====
section
/-! DEFINITION. The dispatch: one arm for every instruction of the table, in the table's order. -/

namespace Sys2Proof.Machine

/-- What an instruction does. -/
def exec (i : Instr) (s : State) : Host.Outcome State Fault Refusal :=
  match i with
  | .vaddVV m vd va vb => Sys2Proof.Machine.execVaddVV m vd va vb s
  | .vsubVV m vd va vb => Sys2Proof.Machine.execVsubVV m vd va vb s
  | .vmacVV m va vb => Sys2Proof.Machine.execVmacVV m va vb s
  | .vandVV m vd va vb => Sys2Proof.Machine.execVandVV m vd va vb s
  | .vorVV m vd va vb => Sys2Proof.Machine.execVorVV m vd va vb s
  | .vxorVV m vd va vb => Sys2Proof.Machine.execVxorVV m vd va vb s
  | .vadduVV m vd va vb => Sys2Proof.Machine.execVadduVV m vd va vb s
  | .vsubuVV m vd va vb => Sys2Proof.Machine.execVsubuVV m vd va vb s
  | .vmacuVV m va vb => Sys2Proof.Machine.execVmacuVV m va vb s
  | .vabsdiffVV m vd va vb => Sys2Proof.Machine.execVabsdiffVV m vd va vb s
  | .vsraVV m vd va vb => Sys2Proof.Machine.execVsraVV m vd va vb s
  | .vcmpeqVV m fd va vb => Sys2Proof.Machine.execVcmpeqVV m fd va vb s
  | .vsllVV m vd va vb => Sys2Proof.Machine.execVsllVV m vd va vb s
  | .vsrlVV m vd va vb => Sys2Proof.Machine.execVsrlVV m vd va vb s
  | .vrotVV m vd va vb => Sys2Proof.Machine.execVrotVV m vd va vb s
  | .vcmpltVV m fd va vb => Sys2Proof.Machine.execVcmpltVV m fd va vb s
  | .vdivVV m vd va vb => Sys2Proof.Machine.execVdivVV m vd va vb s
  | .vcmpleVV m fd va vb => Sys2Proof.Machine.execVcmpleVV m fd va vb s
  | .vmergeVV m vd va vb => Sys2Proof.Machine.execVmergeVV m vd va vb s
  | .vcmpneqVV m fd va vb => Sys2Proof.Machine.execVcmpneqVV m fd va vb s
  | .vcmpltuVV m fd va vb => Sys2Proof.Machine.execVcmpltuVV m fd va vb s
  | .vdivuVV m vd va vb => Sys2Proof.Machine.execVdivuVV m vd va vb s
  | .vcmpleuVV m fd va vb => Sys2Proof.Machine.execVcmpleuVV m fd va vb s
  | .vmaxVV m vd va vb => Sys2Proof.Machine.execVmaxVV m vd va vb s
  | .vextVV vd va => Sys2Proof.Machine.execVextVV vd va s
  | .vinsVV vd va => Sys2Proof.Machine.execVinsVV vd va s
  | .vminVV m vd va vb => Sys2Proof.Machine.execVminVV m vd va vb s
  | .vmulhiVV m vd va vb => Sys2Proof.Machine.execVmulhiVV m vd va vb s
  | .vmulloVV m vd va vb => Sys2Proof.Machine.execVmulloVV m vd va vb s
  | .vmaxuVV m vd va vb => Sys2Proof.Machine.execVmaxuVV m vd va vb s
  | .vminuVV m vd va vb => Sys2Proof.Machine.execVminuVV m vd va vb s
  | .vmulhiuVV m vd va vb => Sys2Proof.Machine.execVmulhiuVV m vd va vb s
  | .vmullouVV m vd va vb => Sys2Proof.Machine.execVmullouVV m vd va vb s
  | .vccacc vd => Sys2Proof.Machine.execVccacc vd s
  | .vupshift vd va => Sys2Proof.Machine.execVupshift vd va s
  | .vcomp m vd va => Sys2Proof.Machine.execVcomp m vd va s
  | .vexpand m vd va => Sys2Proof.Machine.execVexpand m vd va s
  | .vabsVV m vd va => Sys2Proof.Machine.execVabsVV m vd va s
  | .vcczacc vd => Sys2Proof.Machine.execVcczacc vd s
  | .vaddVS m vd va rs => Sys2Proof.Machine.execVaddVS m vd va rs s
  | .vsubVS m vd va rs => Sys2Proof.Machine.execVsubVS m vd va rs s
  | .vmacVS m va rs => Sys2Proof.Machine.execVmacVS m va rs s
  | .vandVS m vd va rs => Sys2Proof.Machine.execVandVS m vd va rs s
  | .vorVS m vd va rs => Sys2Proof.Machine.execVorVS m vd va rs s
  | .vxorVS m vd va rs => Sys2Proof.Machine.execVxorVS m vd va rs s
  | .vadduVS m vd va rs => Sys2Proof.Machine.execVadduVS m vd va rs s
  | .vsubuVS m vd va rs => Sys2Proof.Machine.execVsubuVS m vd va rs s
  | .vmacuVS m va rs => Sys2Proof.Machine.execVmacuVS m va rs s
  | .vabsdiffVS m vd va rs => Sys2Proof.Machine.execVabsdiffVS m vd va rs s
  | .vsraVS m vd va rs => Sys2Proof.Machine.execVsraVS m vd va rs s
  | .vcmpeqVS m fd va rs => Sys2Proof.Machine.execVcmpeqVS m fd va rs s
  | .vsllVS m vd va rs => Sys2Proof.Machine.execVsllVS m vd va rs s
  | .vsrlVS m vd va rs => Sys2Proof.Machine.execVsrlVS m vd va rs s
  | .vrotVS m vd va rs => Sys2Proof.Machine.execVrotVS m vd va rs s
  | .vcmpltVS m fd va rs => Sys2Proof.Machine.execVcmpltVS m fd va rs s
  | .vdivVS m vd va rs => Sys2Proof.Machine.execVdivVS m vd va rs s
  | .vcmpleVS m fd va rs => Sys2Proof.Machine.execVcmpleVS m fd va rs s
  | .vmergeVS m vd va rs => Sys2Proof.Machine.execVmergeVS m vd va rs s
  | .vcmpneqVS m fd va rs => Sys2Proof.Machine.execVcmpneqVS m fd va rs s
  | .vcmpltuVS m fd va rs => Sys2Proof.Machine.execVcmpltuVS m fd va rs s
  | .vdivuVS m vd va rs => Sys2Proof.Machine.execVdivuVS m vd va rs s
  | .vcmpleuVS m fd va rs => Sys2Proof.Machine.execVcmpleuVS m fd va rs s
  | .vmaxVS m vd va rs => Sys2Proof.Machine.execVmaxVS m vd va rs s
  | .vextVS rs va => Sys2Proof.Machine.execVextVS rs va s
  | .vinsVS vd rs => Sys2Proof.Machine.execVinsVS vd rs s
  | .vminVS m vd va rs => Sys2Proof.Machine.execVminVS m vd va rs s
  | .vmulhiVS m vd va rs => Sys2Proof.Machine.execVmulhiVS m vd va rs s
  | .vmulloVS m vd va rs => Sys2Proof.Machine.execVmulloVS m vd va rs s
  | .vmaxuVS m vd va rs => Sys2Proof.Machine.execVmaxuVS m vd va rs s
  | .vextuVS rs va => Sys2Proof.Machine.execVextuVS rs va s
  | .vminuVS m vd va rs => Sys2Proof.Machine.execVminuVS m vd va rs s
  | .vmulhiuVS m vd va rs => Sys2Proof.Machine.execVmulhiuVS m vd va rs s
  | .vmullouVS m vd va rs => Sys2Proof.Machine.execVmullouVS m vd va rs s
  | .vsraSV m vd rs vb => Sys2Proof.Machine.execVsraSV m vd rs vb s
  | .vsubSV m vd rs vb => Sys2Proof.Machine.execVsubSV m vd rs vb s
  | .vsllSV m vd rs vb => Sys2Proof.Machine.execVsllSV m vd rs vb s
  | .vsrlSV m vd rs vb => Sys2Proof.Machine.execVsrlSV m vd rs vb s
  | .vrotSV m vd rs vb => Sys2Proof.Machine.execVrotSV m vd rs vb s
  | .vcmpltSV m fd rs vb => Sys2Proof.Machine.execVcmpltSV m fd rs vb s
  | .vdivSV m vd rs vb => Sys2Proof.Machine.execVdivSV m vd rs vb s
  | .vcmpleSV m fd rs vb => Sys2Proof.Machine.execVcmpleSV m fd rs vb s
  | .vmergeSV m vd rs vb => Sys2Proof.Machine.execVmergeSV m vd rs vb s
  | .vsubuSV m vd rs vb => Sys2Proof.Machine.execVsubuSV m vd rs vb s
  | .vcmpltuSV m fd rs vb => Sys2Proof.Machine.execVcmpltuSV m fd rs vb s
  | .vdivuSV m vd rs vb => Sys2Proof.Machine.execVdivuSV m vd rs vb s
  | .vcmpleuSV m fd rs vb => Sys2Proof.Machine.execVcmpleuSV m fd rs vb s
  | .vsaddVV m vd va vb => Sys2Proof.Machine.execVsaddVV m vd va vb s
  | .vssubVV m vd va vb => Sys2Proof.Machine.execVssubVV m vd va vb s
  | .vsat n m vd va => Sys2Proof.Machine.execVsat n m vd va s
  | .vsrr m vd va => Sys2Proof.Machine.execVsrr m vd va s
  | .vsls m vd va => Sys2Proof.Machine.execVsls m vd va s
  | .vxmulhiVV m vd va vb => Sys2Proof.Machine.execVxmulhiVV m vd va vb s
  | .vxmulloVV m vd va vb => Sys2Proof.Machine.execVxmulloVV m vd va vb s
  | .vsadduVV m vd va vb => Sys2Proof.Machine.execVsadduVV m vd va vb s
  | .vssubuVV m vd va vb => Sys2Proof.Machine.execVssubuVV m vd va vb s
  | .vsatu n m vd va => Sys2Proof.Machine.execVsatu n m vd va s
  | .vsrru m vd va => Sys2Proof.Machine.execVsrru m vd va s
  | .vslsu m vd va => Sys2Proof.Machine.execVslsu m vd va s
  | .vxmulhiuVV m vd va vb => Sys2Proof.Machine.execVxmulhiuVV m vd va vb s
  | .vxmullouVV m vd va vb => Sys2Proof.Machine.execVxmullouVV m vd va vb s
  | .vxccacc vd => Sys2Proof.Machine.execVxccacc vd s
  | .vsatsu n m vd va => Sys2Proof.Machine.execVsatsu n m vd va s
  | .vxcczacc vd => Sys2Proof.Machine.execVxcczacc vd s
  | .vsaddVS m vd va rs => Sys2Proof.Machine.execVsaddVS m vd va rs s
  | .vssubVS m vd va rs => Sys2Proof.Machine.execVssubVS m vd va rs s
  | .vxmulhiVS m vd va rs => Sys2Proof.Machine.execVxmulhiVS m vd va rs s
  | .vxmulloVS m vd va rs => Sys2Proof.Machine.execVxmulloVS m vd va rs s
  | .vsadduVS m vd va rs => Sys2Proof.Machine.execVsadduVS m vd va rs s
  | .vssubuVS m vd va rs => Sys2Proof.Machine.execVssubuVS m vd va rs s
  | .vxmulhiuVS m vd va rs => Sys2Proof.Machine.execVxmulhiuVS m vd va rs s
  | .vxmullouVS m vd va rs => Sys2Proof.Machine.execVxmullouVS m vd va rs s
  | .vssubSV m vd rs vb => Sys2Proof.Machine.execVssubSV m vd rs vb s
  | .vssubuSV m vd rs vb => Sys2Proof.Machine.execVssubuSV m vd rs vb s
  | .vfclr fd => Sys2Proof.Machine.execVfclr fd s
  | .vfset fd => Sys2Proof.Machine.execVfset fd s
  | .vfandVV fd fa fb => Sys2Proof.Machine.execVfandVV fd fa fb s
  | .vfnorVV fd fa fb => Sys2Proof.Machine.execVfnorVV fd fa fb s
  | .vforVV fd fa fb => Sys2Proof.Machine.execVforVV fd fa fb s
  | .vfxorVV fd fa fb => Sys2Proof.Machine.execVfxorVV fd fa fb s
  | .vfff1 rs fa => Sys2Proof.Machine.execVfff1 rs fa s
  | .vffl1 rs fa => Sys2Proof.Machine.execVffl1 rs fa s
  | .vfsetof fd fa => Sys2Proof.Machine.execVfsetof fd fa s
  | .vfsetbf fd fa => Sys2Proof.Machine.execVfsetbf fd fa s
  | .vfsetif fd fa => Sys2Proof.Machine.execVfsetif fd fa s
  | .vfinsVS fd rs => Sys2Proof.Machine.execVfinsVS fd rs s
  | .vfandVS fd fa rs => Sys2Proof.Machine.execVfandVS fd fa rs s
  | .vfnorVS fd fa rs => Sys2Proof.Machine.execVfnorVS fd fa rs s
  | .vforVS fd fa rs => Sys2Proof.Machine.execVforVS fd fa rs s
  | .vfxorVS fd fa rs => Sys2Proof.Machine.execVfxorVS fd fa rs s
  | .vmstc vc rs => Sys2Proof.Machine.execVmstc vc rs s
  | .vmcts rs vc => Sys2Proof.Machine.execVmcts rs vc s
  | .vldB m vd vb vi => Sys2Proof.Machine.execVldB m vd vb vi s
  | .vstB m va vb vi => Sys2Proof.Machine.execVstB m va vb vi s
  | .vldsB m vd vb vs vi => Sys2Proof.Machine.execVldsB m vd vb vs vi s
  | .vstsB m va vb vs vi => Sys2Proof.Machine.execVstsB m va vb vs vi s
  | .vldxB m vd vo vb => Sys2Proof.Machine.execVldxB m vd vo vb s
  | .vstxuB m va vo vb => Sys2Proof.Machine.execVstxuB m va vo vb s
  | .vstxB m va vo vb => Sys2Proof.Machine.execVstxB m va vo vb s
  | .vlduB m vd vb vi => Sys2Proof.Machine.execVlduB m vd vb vi s
  | .vldsuB m vd vb vs vi => Sys2Proof.Machine.execVldsuB m vd vb vs vi s
  | .vldxuB m vd vo vb => Sys2Proof.Machine.execVldxuB m vd vo vb s
  | .vldH m vd vb vi => Sys2Proof.Machine.execVldH m vd vb vi s
  | .vstH m va vb vi => Sys2Proof.Machine.execVstH m va vb vi s
  | .vldsH m vd vb vs vi => Sys2Proof.Machine.execVldsH m vd vb vs vi s
  | .vstsH m va vb vs vi => Sys2Proof.Machine.execVstsH m va vb vs vi s
  | .vldxH m vd vo vb => Sys2Proof.Machine.execVldxH m vd vo vb s
  | .vstxuH m va vo vb => Sys2Proof.Machine.execVstxuH m va vo vb s
  | .vstxH m va vo vb => Sys2Proof.Machine.execVstxH m va vo vb s
  | .vlduH m vd vb vi => Sys2Proof.Machine.execVlduH m vd vb vi s
  | .vldsuH m vd vb vs vi => Sys2Proof.Machine.execVldsuH m vd vb vs vi s
  | .vldxuH m vd vo vb => Sys2Proof.Machine.execVldxuH m vd vo vb s
  | .vldW m vd vb vi => Sys2Proof.Machine.execVldW m vd vb vi s
  | .vstW m va vb vi => Sys2Proof.Machine.execVstW m va vb vi s
  | .vldsW m vd vb vs vi => Sys2Proof.Machine.execVldsW m vd vb vs vi s
  | .vstsW m va vb vs vi => Sys2Proof.Machine.execVstsW m va vb vs vi s
  | .vldxW m vd vo vb => Sys2Proof.Machine.execVldxW m vd vo vb s
  | .vstxuW m va vo vb => Sys2Proof.Machine.execVstxuW m va vo vb s
  | .vstxW m va vo vb => Sys2Proof.Machine.execVstxW m va vo vb s
  | .vldlVV m vd va => Sys2Proof.Machine.execVldlVV m vd va s
  | .vstlVV m va vb => Sys2Proof.Machine.execVstlVV m va vb s
  | .vfld fd vb vi => Sys2Proof.Machine.execVfld fd vb vi s
  | .vfst fd vb vi => Sys2Proof.Machine.execVfst fd vb vi s
  | .vstlVS m va rs => Sys2Proof.Machine.execVstlVS m va rs s
  | .vfpop rs fa => Sys2Proof.Machine.execVfpop rs fa s

end Sys2Proof.Machine
end

