-- ==== Sys2Proof/Machine/Fetch.lean ====
section
/-! DEFINITION. Fetching an instruction word from the program (R74, R324) and the step of the
abstract scalar-core agent (R300). -/

namespace Sys2Proof.Machine

/-- What stands at the `pc`. -/
inductive Fetched where
  /-- A word of the program. -/
  | word (w : Word)
  /-- The `pc` is the address just past the last word: the run has ended (R324). -/
  | ended
  /-- No word of the program stands there. -/
  | outside
deriving DecidableEq, Repr

/-- The place of the `pc` in the program: `n` if it is `StartPC + 4 n` (R320, R324). -/
def State.programIndex (s : State) : Option Nat :=
  if s.startPC.toNat ≤ s.pc.toNat ∧ (s.pc.toNat - s.startPC.toNat) % 4 = 0 then
    some ((s.pc.toNat - s.startPC.toNat) / 4)
  else none

/-- The instruction word at the `pc` (R44, R74, R324). -/
def State.fetch (s : State) : Fetched :=
  match s.programIndex with
  | none => .outside
  | some n =>
    match s.program[n]? with
    | some w => .word w
    | none => if n = s.program.length then .ended else .outside

/-- The state with a word placed where the next step fetches: in the program if the `pc` stands at a
word of it, else as a program of one word that starts at the `pc`. -/
def State.placeWord (s : State) (w : Word) : State :=
  match s.fetch, s.programIndex with
  | .word _, some n => { s with program := s.program.set n w }
  | _, _ => { s with program := [w], startPC := s.pc }

/-- A step of the scalar core on a word that is no vector instruction (R300): it may change any of
`x[1 .. 31]`, the `pc` and any byte of plain main memory, all to values nothing is known of, and it
changes nothing else. DEDUCED: log entry 12. -/
def State.scalarCoreStep (s : State) : State :=
  { s with
    pc := s.draw .scalarPc 0
    x := Vector.ofFn fun r => if r = 0 then s.x.get r else s.draw .scalarReg r.val
    mem := ((Config.scalarStores s.drawCount).filter fun c => plainByte s.cfg c.1).foldl
      (fun mem c => mem.write c.1 c.2) s.mem
    drawCount := s.drawCount + 1 }

end Sys2Proof.Machine
end

