-- ==== Sys2Proof/Machine/Step.lean ====
section
/-! DEFINITION. One step of the machine: fetch, decode, execute (R44, R125, R300). -/

namespace Sys2Proof.Machine

/-- One step. A vector instruction runs; a reserved word is refused (R109); a word of another opcode
is a step of the scalar-core agent (R300); where no word stands there is no step (R324). -/
def step (s : State) : Host.Outcome State Fault Refusal :=
  match s.fetch with
  | .ended => .refused .runEnded
  | .outside => .refused .pcOutsideProgram
  | .word w =>
    match decodeWord s.cfg w with
    | .instr i => exec i s
    | .scalar => .next s.scalarCoreStep
    | .reserved => .refused .reservedEncoding
    | .truncated => .refused .reservedEncoding

/-- `s` with the instruction whose bits are `w` stored where `step` fetches its next instruction. -/
def State.withFetchWord (s : State) (nbits w : Nat) : State :=
  s.placeWord (BitVec.ofNat 32 (w % 2 ^ nbits))

end Sys2Proof.Machine
end

