-- ==== Sys2Proof/Safety.lean ====
section
/-! DEFINITION. The terms claims are stated in: which parameter values describe an instance, which
states the machine can be in, and what an instruction leaves unchanged. -/

namespace Sys2Proof.Machine

/-! ### Instances -/

/-- `g(i)` of R35: the element of the partial result vector in which the product of VP `i` lands. -/
def landsIn (c : Config) (i : Nat) : Nat := accChain c (accOf c i)

/-- `g^n(i) = 0` for every VP `i`: `n` copies from the accumulators reduce a whole vector (R35). -/
def reducedBy (c : Config) (n : Nat) : Bool :=
  (List.range c.mvl).all fun i => Nat.repeat (landsIn c) n i == 0

/-- The parameters of the MAC units fit together (R35, R38; 92_eei_decisions.md section 2): the map
is into the accumulators, the partial result vector fits in a register, and `ACCncopy` is the least
count of R35. -/
def validMac (c : Config) : Bool :=
  1 ≤ c.nAcc && c.w ≤ c.accW && c.accmap.length == c.mvl && c.accmap.all (· < c.nAcc) &&
  partialCount c ≤ c.mvl && 1 ≤ c.accNcopy && reducedBy c c.accNcopy &&
  (List.range c.accNcopy).all fun n => n == 0 || !reducedBy c n

/-- The parameters describe an instance (R6, R9, R34; 92_eei_decisions.md section 2). The static
control registers hold 32 bits. -/
def validConfig (c : Config) : Bool :=
  1 ≤ c.nLane && c.nLane < 2 ^ 32 && c.logMvl < 32 && c.memMinWidth.bits ≤ c.w &&
  (c.macl == 0 || validMac c)

/-! ### States the machine can be in -/

/-- Every vector register holds `MVL` elements of `W` bits (R20). -/
def vectorsFit (s : State) : Prop :=
  ∀ r, (s.v.get r).length = s.cfg.mvl ∧ ∀ e ∈ s.v.get r, e.toNat < 2 ^ s.cfg.w

/-- Every flag register holds `MVL` bits (R23). -/
def flagsFit (s : State) : Prop := ∀ q, (s.f.get q).length = s.cfg.mvl

/-- There are `NAcc` accumulators of `AccW` bits, or none (R38). -/
def accumulatorsFit (s : State) : Prop :=
  s.acc.length = accCount s.cfg ∧ ∀ a ∈ s.acc, a.value < 2 ^ s.cfg.accW

/-- Main memory is in its canonical form and lists plain memory only (R61). -/
def memoryFits (s : State) : Prop :=
  Memory.wf s.mem = true ∧ ∀ c ∈ s.mem, plainByte s.cfg c.1 = true

/-- The local memory lists words of `W` bits at legal addresses, by rising key (R41, R230). -/
def localMemoryFits (s : State) : Prop :=
  risingKeys s.lmem = true ∧
  ∀ c ∈ s.lmem, c.1 % 2 ^ 32 < localWords s.cfg ∧ c.2.toNat < 2 ^ s.cfg.w

/-- The invariant of the machine: the parameters describe an instance, every register file and
memory has its shape, and `VL` is legal (R33). -/
def Inv (s : State) : Prop :=
  validConfig s.cfg = true ∧ vectorsFit s ∧ flagsFit s ∧ s.vlen ≤ s.cfg.mvl ∧ accumulatorsFit s ∧
  memoryFits s ∧ localMemoryFits s

/-! ### Frames -/

/-- What an instruction may change, besides the `pc`. -/
structure Frame where
  /-- Vector registers. -/
  v : List VReg := []
  /-- Flag registers. -/
  f : List FReg := []
  /-- Scalar registers. -/
  x : List SReg := []
  /-- Control registers. -/
  c : List CReg := []
  /-- The accumulators. -/
  acc : Bool := false
  /-- The local memory. -/
  lmem : Bool := false
  /-- Main memory. -/
  mem : Bool := false

/-- Everything outside the frame reads in `t` as in `s`. The parameters and the program never
change. -/
def unchangedBut (fr : Frame) (s t : State) : Prop :=
  (t.cfg = s.cfg ∧ t.program = s.program ∧ t.startPC = s.startPC) ∧
  (∀ r, r ∉ fr.v → ∀ i, t.velem r i = s.velem r i) ∧
  (∀ q, q ∉ fr.f → ∀ i, t.felem q i = s.felem q i) ∧
  (∀ r, r ∉ fr.x → t.xreg r = s.xreg r) ∧
  (∀ n, n ∉ fr.c → t.creg n = s.creg n) ∧
  (fr.acc = false → t.acc = s.acc) ∧
  (fr.lmem = false → t.lmem = s.lmem) ∧
  (fr.mem = false → ∀ a, t.mem.read a = s.mem.read a)

/-! ### What an instruction computes -/

/-- `i` completes in `s`: the next state has the `pc` of the next word (R44), changes nothing outside
the frame, and is as `post` says. -/
def completes (i : Instr) (s : State) (fr : Frame) (post : State → Prop) : Prop :=
  ∃ t, exec i s = .next t ∧ t.pc = s.pc + 4 ∧ unchangedBut fr s t ∧ post t

/-- `s(v)` of an element (R11). -/
def signedOf (c : Config) (e : Elem) : Int := (e.setWidth c.w).toInt

/-- `u(v)` of an element (R11). -/
def unsignedOf (c : Config) (e : Elem) : Nat := (e.setWidth c.w).toNat

/-- `s(opA(i))`, `s(opB(i))` (R11, R15). -/
def State.signedAt (s : State) (o : Source) (i : Nat) : Int := signedOf s.cfg (s.source o i)

/-- `u(opA(i))`, `u(opB(i))` (R11, R15). -/
def State.unsignedAt (s : State) (o : Source) (i : Nat) : Nat := unsignedOf s.cfg (s.source o i)

/-- The element is `wrap_W(z)` (R11). -/
def wrapsTo (c : Config) (z : Int) (e : Elem) : Prop := (e.toNat : Int) = z % 2 ^ c.w

/-- The element has `W` bits; all that is known of a drawn one (R13). -/
def fits (c : Config) (e : Elem) : Prop := e.toNat < 2 ^ c.w

/-- The elements of `vD` in the state `t` after an instruction: those that the instruction `writes`
are as `value` says, the others are as before; `vr0` reads 0 throughout (R14, R21). -/
def elementsAfter (s t : State) (vd : VReg) (writes : Nat → Prop) (value : Nat → Elem → Prop) : Prop :=
  ∀ i, i < s.cfg.mvl →
    (vd = 0 → t.velem vd i = 0) ∧
    (vd ≠ 0 → writes i → value i (t.velem vd i)) ∧
    (vd ≠ 0 → ¬ writes i → t.velem vd i = s.velem vd i)

/-- The bits of `vF` in the state `t` after an instruction: those that the instruction `writes` are
as `value` says, those it `keeps` are as before; `$vf30` reads 0 and `$vf31` reads 1 (R25). -/
def flagsAfter (s t : State) (fd : FReg) (writes keeps : Nat → Prop) (value : Nat → Bool → Prop) :
    Prop :=
  ∀ i, i < s.cfg.mvl →
    (fd = 30 → t.felem fd i = false) ∧
    (fd = 31 → t.felem fd i = true) ∧
    (fd ≠ 30 → fd ≠ 31 → writes i → value i (t.felem fd i)) ∧
    (fd ≠ 30 → fd ≠ 31 → keeps i → t.felem fd i = s.felem fd i)

/-- A masked instruction of opcode 0x3D, or of 0x3E with OPX 0, that writes `vD`: the active elements
take the values, nothing else changes but `$vf16` and `$vf17`, of which nothing is known (R14, R27). -/
def computes (i : Instr) (s : State) (m : MaskSel) (vd : VReg) (value : Nat → Elem → Prop) : Prop :=
  completes i s { v := [vd], f := [16, 17] } fun t =>
    elementsAfter s t vd (fun i => s.active m i = true) value

/-- A compare: the active elements of `vF` take the values (R156). Of the other elements of `$vf16`
and `$vf17` nothing is known (R27). -/
def compares (i : Instr) (s : State) (m : MaskSel) (fd : FReg) (value : Nat → Prop) : Prop :=
  completes i s { f := [fd, 16, 17] } fun t =>
    flagsAfter s t fd (fun i => s.active m i = true)
      (fun i => s.active m i = false ∧ fd ≠ 16 ∧ fd ≠ 17) fun i b => (b = true ↔ value i)

/-- `S(z, N)`: the nearest integer to `z` in the signed `N`-bit range (R181). -/
def nearestSigned (n : Nat) (z : Int) : Int := max (-(2 ^ (n - 1))) (min (2 ^ (n - 1) - 1) z)

/-- The nearest integer to `z` in the unsigned `N`-bit range (R181). -/
def nearestUnsigned (n : Nat) (z : Int) : Int := max 0 (min (2 ^ n - 1) z)

/-- `q` is what R131 allows for the quotient of `a` by `b`: its floor or its ceiling, and toward zero
if the parameter `DivRound` is the default. -/
def isQuotient (c : Config) (a b q : Int) : Prop :=
  (c.divRound = .towardZero → q = a.tdiv b) ∧
  (q = a.fdiv b ∨ (a.fmod b ≠ 0 ∧ q = a.fdiv b + 1))

/-- `q` is what R181 allows for `FxRound(z, n)`: between the floor and the ceiling of `z / 2^n`, and
half up in the test configuration TC1F. -/
def isRounded (c : Config) (z : Int) (n : Nat) (q : Int) : Prop :=
  q * 2 ^ n < z + 2 ^ n ∧ z - 2 ^ n < q * 2 ^ n ∧
  (c.fxRound = .halfUp → q = (2 * z + 2 ^ n) / (2 * 2 ^ n))

/-- The word of `i` under the default field layout has these codes in `OP`, `OPX` and `FUNC` (R94). -/
def hasCell (i : Instr) (op opx func : Nat) : Prop :=
  ∃ w, encode FieldLayout.r93 i = some w ∧ w.toNat % 64 = op ∧ w.toNat / 4096 % 2 = opx ∧
    w.toNat / 64 % 64 = func

/-- The control register number of a base register (R36). -/
def baseCreg (vb : VBase) : CReg := ⟨48 + vb.val, by omega⟩

/-! ### Legal accesses -/

/-- An access of `n` bytes that raises no fault: aligned, inside the address space, plain memory
(R61, R62, R65). -/
abbrev legalAccess (c : Config) (addr : Int) (n : Nat) : Prop :=
  addr % n = 0 ∧ 0 ≤ addr ∧ addr + n ≤ 2 ^ 32 ∧ ∀ j, j < n → plainByte c (addr.toNat + j) = true

/-- A main-memory instruction whose access width is available, whose base is aligned and whose active
VPs make legal accesses (R67, R211). -/
abbrev legalAccesses (s : State) (wd : Width) (m : MaskSel) (vb : VBase) (addr : Nat → Int) : Prop :=
  widthAvailable s.cfg wd = true ∧ (s.base vb : Int) % wd.bytes = 0 ∧
  ∀ i, i < s.cfg.mvl → s.active m i = true → legalAccess s.cfg (addr i) wd.bytes

/-- No active VP of a store stores to the program text (R74). -/
abbrev avoidsCode (s : State) (n : Nat) (m : MaskSel) (addr : Nat → Int) : Prop :=
  ∀ i, i < s.cfg.mvl → s.active m i = true → s.hitsCode n (addr i) = false

/-- `vfld` and `vfst` make legal accesses: the base aligned to the VP width, every byte legal (R225). -/
abbrev legalFlagAccess (s : State) (vb : VBase) : Prop :=
  (s.base vb : Int) % (s.cfg.w / 8 : Nat) = 0 ∧
  ∀ j, j < s.flagBytes → legalAccess s.cfg (s.flagAddr vb j) 1

/-- No byte that `vfst` writes belongs to the program text (R74). -/
abbrev flagBytesAvoidCode (s : State) (vb : VBase) : Prop :=
  ∀ j, j < s.flagBytes → s.hitsCode 1 (s.flagAddr vb j) = false

/-- The value of `8n` bits read as an integer, signed or unsigned (R66). -/
def memoryValue (signed : Bool) (wd : Width) (raw : Nat) : Int :=
  if signed = true ∧ 2 ^ (wd.bits - 1) ≤ raw then (raw : Int) - 2 ^ wd.bits else raw

/-- The auto-increment happened: `vbase <- wrap_32(u(vbase) + s(vinc))` (R212). -/
def baseIncremented (s t : State) (vb : VBase) (vi : VInc) : Prop :=
  ((t.vbase.get vb).toNat : Int) = ((s.vbase.get vb).toNat + (s.vinc.get vi).toInt) % 2 ^ 32

/-- A load: the active elements of `vD` take the extended values of memory at their addresses; the
base register changes only where the frame lists it (R210). -/
def loads (i : Instr) (s : State) (wd : Width) (signed : Bool) (m : MaskSel) (vd : VReg)
    (bases : List CReg) (addr : Nat → Int) (post : State → Prop) : Prop :=
  completes i s { v := [vd], c := bases } fun t =>
    elementsAfter s t vd (fun k => s.active m k = true) (fun k e =>
      wrapsTo s.cfg (memoryValue signed wd (s.mem.readLE (addr k).toNat wd.bytes)) e) ∧ post t

/-- A store: `stored k j` says that the bytes at the address of the active VP `k` may hold the data of
VP `j` afterwards; every byte that no active VP stores to is as before (R210, R71). -/
def stores (i : Instr) (s : State) (wd : Width) (m : MaskSel) (va : VReg) (bases : List CReg)
    (addr : Nat → Int) (stored : Nat → Nat → Prop) (post : State → Prop) : Prop :=
  completes i s { mem := true, c := bases } fun t =>
    (∀ k, k < s.cfg.mvl → s.active m k = true → ∃ j, j < s.cfg.mvl ∧ s.active m j = true ∧
      stored k j ∧
      t.mem.readLE (addr k).toNat wd.bytes = (s.velem va j).toNat % 2 ^ wd.bits) ∧
    (∀ a, (∀ k, k < s.cfg.mvl → s.active m k = true →
        ¬ ((addr k).toNat ≤ a ∧ a < (addr k).toNat + wd.bytes)) → t.mem.read a = s.mem.read a) ∧
    post t

/-- VP `j` is the last active VP, in element order, that stores to the address of VP `k` (R71). -/
def lastStoring (s : State) (m : MaskSel) (addr : Nat → Int) (k j : Nat) : Prop :=
  addr j = addr k ∧ ∀ l, l < s.cfg.mvl → s.active m l = true → addr l = addr k → l ≤ j

/-! ### Flag registers as sets -/

/-- `p` is the least element below `VL` whose bit is 1, or `VL` if there is none (R275). -/
def isFirstSet (s : State) (f : FReg) (p : Nat) : Prop :=
  (∀ j, j < p → s.felem f j = false) ∧ ((p < s.vlen ∧ s.felem f p = true) ∨ p = s.vlen)

/-- `p` is the greatest element below `VL` whose bit is 1, or `VL` if there is none (R270). -/
def isLastSet (s : State) (f : FReg) (p : Nat) : Prop :=
  (p < s.vlen ∧ s.felem f p = true ∧ ∀ j, p < j → j < s.vlen → s.felem f j = false) ∨
  (p = s.vlen ∧ ∀ j, j < s.vlen → s.felem f j = false)

/-- The number of active VPs below `i` (R247, R248). -/
def unmaskedBelow (s : State) (m : MaskSel) (i : Nat) : Nat :=
  ((Finset.range i).filter fun k => s.active m k = true).card

/-- The `pc` stands at the word `w` of the program (R320, R324). -/
def standsAt (s : State) (w : Word) : Prop :=
  ∃ n, s.pc.toNat = s.startPC.toNat + 4 * n ∧ s.program[n]? = some w

/-! ### Families of instructions -/

/-- The main-memory loads with their widths and element addresses (R213 to R220). -/
def loadForms (s : State) (m : MaskSel) (vd vo : VReg) (vb : VBase) (vs : VStride) (vi : VInc) :
    List (Instr × Width × (Nat → Int)) :=
  [(.vldB m vd vb vi, .b, s.unitAddr vb .b), (.vldH m vd vb vi, .h, s.unitAddr vb .h),
   (.vldW m vd vb vi, .w, s.unitAddr vb .w), (.vlduB m vd vb vi, .b, s.unitAddr vb .b),
   (.vlduH m vd vb vi, .h, s.unitAddr vb .h), (.vldsB m vd vb vs vi, .b, s.strideAddr vb vs .b),
   (.vldsH m vd vb vs vi, .h, s.strideAddr vb vs .h),
   (.vldsW m vd vb vs vi, .w, s.strideAddr vb vs .w),
   (.vldsuB m vd vb vs vi, .b, s.strideAddr vb vs .b),
   (.vldsuH m vd vb vs vi, .h, s.strideAddr vb vs .h), (.vldxB m vd vo vb, .b, s.indexAddr vb vo),
   (.vldxH m vd vo vb, .h, s.indexAddr vb vo), (.vldxW m vd vo vb, .w, s.indexAddr vb vo),
   (.vldxuB m vd vo vb, .b, s.indexAddr vb vo), (.vldxuH m vd vo vb, .h, s.indexAddr vb vo)]

/-- The main-memory stores with their widths and element addresses (R215, R218, R221, R222). -/
def storeForms (s : State) (m : MaskSel) (va vo : VReg) (vb : VBase) (vs : VStride) (vi : VInc) :
    List (Instr × Width × (Nat → Int)) :=
  [(.vstB m va vb vi, .b, s.unitAddr vb .b), (.vstH m va vb vi, .h, s.unitAddr vb .h),
   (.vstW m va vb vi, .w, s.unitAddr vb .w), (.vstsB m va vb vs vi, .b, s.strideAddr vb vs .b),
   (.vstsH m va vb vs vi, .h, s.strideAddr vb vs .h),
   (.vstsW m va vb vs vi, .w, s.strideAddr vb vs .w), (.vstxB m va vo vb, .b, s.indexAddr vb vo),
   (.vstxH m va vo vb, .h, s.indexAddr vb vo), (.vstxW m va vo vb, .w, s.indexAddr vb vo),
   (.vstxuB m va vo vb, .b, s.indexAddr vb vo), (.vstxuH m va vo vb, .h, s.indexAddr vb vo),
   (.vstxuW m va vo vb, .w, s.indexAddr vb vo)]

/-- The masked arithmetic and logical instructions that write a vector register element by element
(R132 to R148, R170 to R175), with scalar source `rs`. -/
def elementForms (m : MaskSel) (vd va vb : VReg) (rs : SReg) : List Instr :=
  [.vabsVV m vd va, .vabsdiffVV m vd va vb, .vabsdiffVS m vd va rs, .vaddVV m vd va vb,
   .vaddVS m vd va rs, .vadduVV m vd va vb, .vadduVS m vd va rs, .vsubVV m vd va vb,
   .vsubVS m vd va rs, .vsubSV m vd rs vb, .vsubuVV m vd va vb, .vsubuVS m vd va rs,
   .vsubuSV m vd rs vb, .vmulhiVV m vd va vb, .vmulhiVS m vd va rs, .vmulhiuVV m vd va vb,
   .vmulhiuVS m vd va rs, .vmulloVV m vd va vb, .vmulloVS m vd va rs, .vmullouVV m vd va vb,
   .vmullouVS m vd va rs, .vdivVV m vd va vb, .vdivVS m vd va rs, .vdivSV m vd rs vb,
   .vdivuVV m vd va vb, .vdivuVS m vd va rs, .vdivuSV m vd rs vb, .vsraVV m vd va vb,
   .vsraVS m vd va rs, .vsraSV m vd rs vb, .vminVV m vd va vb, .vminVS m vd va rs,
   .vminuVV m vd va vb, .vminuVS m vd va rs, .vmaxVV m vd va vb, .vmaxVS m vd va rs,
   .vmaxuVV m vd va vb, .vmaxuVS m vd va rs, .vandVV m vd va vb, .vandVS m vd va rs,
   .vorVV m vd va vb, .vorVS m vd va rs, .vxorVV m vd va vb, .vxorVS m vd va rs,
   .vsllVV m vd va vb, .vsllVS m vd va rs, .vsllSV m vd rs vb, .vsrlVV m vd va vb,
   .vsrlVS m vd va rs, .vsrlSV m vd rs vb, .vrotVV m vd va vb, .vrotVS m vd va rs,
   .vrotSV m vd rs vb]

/-- The compares (R149 to R154). -/
def compareForms (m : MaskSel) (fd : FReg) (va vb : VReg) (rs : SReg) : List Instr :=
  [.vcmpeqVV m fd va vb, .vcmpeqVS m fd va rs, .vcmpneqVV m fd va vb, .vcmpneqVS m fd va rs,
   .vcmpltVV m fd va vb, .vcmpltVS m fd va rs, .vcmpltSV m fd rs vb, .vcmpltuVV m fd va vb,
   .vcmpltuVS m fd va rs, .vcmpltuSV m fd rs vb, .vcmpleVV m fd va vb, .vcmpleVS m fd va rs,
   .vcmpleSV m fd rs vb, .vcmpleuVV m fd va vb, .vcmpleuVS m fd va rs, .vcmpleuSV m fd rs vb]

/-- The masked fixed-point instructions, which write a vector register element by element (R182 to
R196). -/
def fixedPointElementForms (n : Width) (m : MaskSel) (vd va vb : VReg) (rs : SReg) : List Instr :=
  [.vsaddVV m vd va vb, .vssubVV m vd va vb, .vsat n m vd va, .vsrr m vd va, .vsls m vd va,
   .vxmulhiVV m vd va vb, .vxmulloVV m vd va vb, .vsadduVV m vd va vb, .vssubuVV m vd va vb,
   .vsatu n m vd va, .vsrru m vd va, .vslsu m vd va, .vxmulhiuVV m vd va vb,
   .vxmullouVV m vd va vb, .vsatsu n m vd va, .vsaddVS m vd va rs, .vssubVS m vd va rs,
   .vxmulhiVS m vd va rs, .vxmulloVS m vd va rs, .vsadduVS m vd va rs, .vssubuVS m vd va rs,
   .vxmulhiuVS m vd va rs, .vxmullouVS m vd va rs, .vssubSV m vd rs vb, .vssubuSV m vd rs vb]

/-- Every instruction of opcode 0x3E with OPX 0 (R105, R180). -/
def fixedPointForms (n : Width) (m : MaskSel) (vd va vb : VReg) (rs : SReg) : List Instr :=
  .vxccacc vd :: .vxcczacc vd :: fixedPointElementForms n m vd va vb rs

/-- The instructions that name flag registers as operands, with the registers they name (R26). -/
def flagForms (m : MaskSel) (va vb : VReg) (rs : SReg) (fd fa fb : FReg) (ba : VBase) (vi : VInc) :
    List (Instr × List FReg) :=
  [(.vcmpeqVV m fd va vb, [fd]), (.vcmpeqVS m fd va rs, [fd]), (.vcmpneqVV m fd va vb, [fd]),
   (.vcmpneqVS m fd va rs, [fd]), (.vcmpltVV m fd va vb, [fd]), (.vcmpltVS m fd va rs, [fd]),
   (.vcmpltSV m fd rs vb, [fd]), (.vcmpltuVV m fd va vb, [fd]), (.vcmpltuVS m fd va rs, [fd]),
   (.vcmpltuSV m fd rs vb, [fd]), (.vcmpleVV m fd va vb, [fd]), (.vcmpleVS m fd va rs, [fd]),
   (.vcmpleSV m fd rs vb, [fd]), (.vcmpleuVV m fd va vb, [fd]), (.vcmpleuVS m fd va rs, [fd]),
   (.vcmpleuSV m fd rs vb, [fd]), (.vfandVV fd fa fb, [fd, fa, fb]), (.vfnorVV fd fa fb, [fd, fa, fb]),
   (.vforVV fd fa fb, [fd, fa, fb]), (.vfxorVV fd fa fb, [fd, fa, fb]), (.vfandVS fd fa rs, [fd, fa]),
   (.vfnorVS fd fa rs, [fd, fa]), (.vforVS fd fa rs, [fd, fa]), (.vfxorVS fd fa rs, [fd, fa]),
   (.vfclr fd, [fd]), (.vfset fd, [fd]), (.vfinsVS fd rs, [fd]), (.vfpop rs fa, [fa]),
   (.vfff1 rs fa, [fa]), (.vffl1 rs fa, [fa]), (.vfsetbf fd fa, [fd, fa]), (.vfsetif fd fa, [fd, fa]),
   (.vfsetof fd fa, [fd, fa]), (.vfld fd ba vi, [fd]), (.vfst fd ba vi, [fd])]

/-- The instructions that read or write the accumulators (R38). -/
def usesAccumulators : Instr → Bool
  | .vmacVV .. | .vmacVS .. | .vmacuVV .. | .vmacuVS .. | .vccacc .. | .vcczacc .. | .vxccacc ..
  | .vxcczacc .. => true
  | _ => false

/-- The scalar register an instruction writes (R30). -/
def scalarDestination : Instr → Option SReg
  | .vextVS rs _ | .vextuVS rs _ | .vmcts rs _ | .vfpop rs _ | .vfff1 rs _ | .vffl1 rs _ => some rs
  | _ => none

/-- The instructions that store to main memory (R60). -/
def storesToMemory : Instr → Bool
  | .vstB .. | .vstH .. | .vstW .. | .vstsB .. | .vstsH .. | .vstsW .. | .vstxB .. | .vstxH ..
  | .vstxW .. | .vstxuB .. | .vstxuH .. | .vstxuW .. | .vfst .. => true
  | _ => false

/-- The instructions that store to the local memory (R41). -/
def storesToLocalMemory : Instr → Bool
  | .vstlVV .. | .vstlVS .. => true
  | _ => false

/-- The instructions that may write elements at or above `VL`: those that address elements through
`vindex` or over all of `MVL` (R22), and the copies from the accumulators (R165). -/
def reachesBeyondVl : Instr → Bool
  | .vinsVV .. | .vinsVS .. | .vupshift .. | .vccacc .. | .vcczacc .. | .vxccacc .. | .vxcczacc .. =>
    true
  | _ => false

/-- The instructions that set `VL` (R32). -/
def setsVl : Instr → Bool
  | .vmstc vc _ => vc == 0
  | .vccacc .. | .vcczacc .. | .vxccacc .. | .vxcczacc .. => true
  | _ => false

/-! ### Safe runs -/

/-- A run of `n` steps meets no fault and no refusal. -/
def safeRun (s : State) (n : Nat) : Prop := ∃ t, Host.Core.run Sys2Proof.core n s = .next t

end Sys2Proof.Machine
end

