-- ==== Sys2Proof/Laws/State.lean ====
section
/-! SUPPORT. One lemma for every field of every named update of the state, and for every register
accessor that an update leaves alone; each is true by rfl. -/

namespace Sys2Proof.Machine

variable (s : State)

/-! ### advance -/

@[simp] theorem State.advance_cfg : (s.advance).cfg = s.cfg := rfl
@[simp] theorem State.advance_pc : (s.advance).pc = s.pc + 4 := rfl
@[simp] theorem State.advance_startPC : (s.advance).startPC = s.startPC := rfl
@[simp] theorem State.advance_program : (s.advance).program = s.program := rfl
@[simp] theorem State.advance_x : (s.advance).x = s.x := rfl
@[simp] theorem State.advance_v : (s.advance).v = s.v := rfl
@[simp] theorem State.advance_f : (s.advance).f = s.f := rfl
@[simp] theorem State.advance_vl : (s.advance).vl = s.vl := rfl
@[simp] theorem State.advance_vindex : (s.advance).vindex = s.vindex := rfl
@[simp] theorem State.advance_vshamt : (s.advance).vshamt = s.vshamt := rfl
@[simp] theorem State.advance_vstride : (s.advance).vstride = s.vstride := rfl
@[simp] theorem State.advance_vinc : (s.advance).vinc = s.vinc := rfl
@[simp] theorem State.advance_vbase : (s.advance).vbase = s.vbase := rfl
@[simp] theorem State.advance_acc : (s.advance).acc = s.acc := rfl
@[simp] theorem State.advance_lmem : (s.advance).lmem = s.lmem := rfl
@[simp] theorem State.advance_mem : (s.advance).mem = s.mem := rfl
@[simp] theorem State.advance_drawCount : (s.advance).drawCount = s.drawCount := rfl
@[simp] theorem State.advance_velem (q : VReg) (i : Nat) :
  (s.advance).velem q i = s.velem q i := rfl
@[simp] theorem State.advance_felem (q : FReg) (i : Nat) :
  (s.advance).felem q i = s.felem q i := rfl
@[simp] theorem State.advance_xreg (q : SReg) :
  (s.advance).xreg q = s.xreg q := rfl
@[simp] theorem State.advance_creg (k : CReg) :
  (s.advance).creg k = s.creg k := rfl
@[simp] theorem State.advance_vlen :
  (s.advance).vlen = s.vlen := rfl
@[simp] theorem State.advance_active (m : MaskSel) (i : Nat) :
  (s.advance).active m i = s.active m i := rfl
@[simp] theorem State.advance_draw (k : DrawKind) (i : Nat) :
  (s.advance).draw k i = s.draw k i := rfl

/-! ### setX -/

@[simp] theorem State.setX_cfg (r : SReg) (a : Word) : (s.setX r a).cfg = s.cfg := rfl
@[simp] theorem State.setX_pc (r : SReg) (a : Word) : (s.setX r a).pc = s.pc := rfl
@[simp] theorem State.setX_startPC (r : SReg) (a : Word) : (s.setX r a).startPC = s.startPC := rfl
@[simp] theorem State.setX_program (r : SReg) (a : Word) : (s.setX r a).program = s.program := rfl
@[simp] theorem State.setX_x (r : SReg) (a : Word) :
    (s.setX r a).x =
      if r = 0 then s.x else regSet s.x r a := rfl
@[simp] theorem State.setX_v (r : SReg) (a : Word) : (s.setX r a).v = s.v := rfl
@[simp] theorem State.setX_f (r : SReg) (a : Word) : (s.setX r a).f = s.f := rfl
@[simp] theorem State.setX_vl (r : SReg) (a : Word) : (s.setX r a).vl = s.vl := rfl
@[simp] theorem State.setX_vindex (r : SReg) (a : Word) : (s.setX r a).vindex = s.vindex := rfl
@[simp] theorem State.setX_vshamt (r : SReg) (a : Word) : (s.setX r a).vshamt = s.vshamt := rfl
@[simp] theorem State.setX_vstride (r : SReg) (a : Word) : (s.setX r a).vstride = s.vstride := rfl
@[simp] theorem State.setX_vinc (r : SReg) (a : Word) : (s.setX r a).vinc = s.vinc := rfl
@[simp] theorem State.setX_vbase (r : SReg) (a : Word) : (s.setX r a).vbase = s.vbase := rfl
@[simp] theorem State.setX_acc (r : SReg) (a : Word) : (s.setX r a).acc = s.acc := rfl
@[simp] theorem State.setX_lmem (r : SReg) (a : Word) : (s.setX r a).lmem = s.lmem := rfl
@[simp] theorem State.setX_mem (r : SReg) (a : Word) : (s.setX r a).mem = s.mem := rfl
@[simp] theorem State.setX_drawCount (r : SReg) (a : Word) :
    (s.setX r a).drawCount =
      s.drawCount := rfl
@[simp] theorem State.setX_velem (r : SReg) (a : Word) (q : VReg) (i : Nat) :
  (s.setX r a).velem q i = s.velem q i := rfl
@[simp] theorem State.setX_felem (r : SReg) (a : Word) (q : FReg) (i : Nat) :
  (s.setX r a).felem q i = s.felem q i := rfl
@[simp] theorem State.setX_creg (r : SReg) (a : Word) (k : CReg) :
  (s.setX r a).creg k = s.creg k := rfl
@[simp] theorem State.setX_vlen (r : SReg) (a : Word) :
  (s.setX r a).vlen = s.vlen := rfl
@[simp] theorem State.setX_active (r : SReg) (a : Word) (m : MaskSel) (i : Nat) :
  (s.setX r a).active m i = s.active m i := rfl
@[simp] theorem State.setX_draw (r : SReg) (a : Word) (k : DrawKind) (i : Nat) :
  (s.setX r a).draw k i = s.draw k i := rfl

/-! ### setV -/

@[simp] theorem State.setV_cfg (r : VReg) (g : Nat → Elem) : (s.setV r g).cfg = s.cfg := rfl
@[simp] theorem State.setV_pc (r : VReg) (g : Nat → Elem) : (s.setV r g).pc = s.pc := rfl
@[simp] theorem State.setV_startPC (r : VReg) (g : Nat → Elem) :
    (s.setV r g).startPC =
      s.startPC := rfl
@[simp] theorem State.setV_program (r : VReg) (g : Nat → Elem) :
    (s.setV r g).program =
      s.program := rfl
@[simp] theorem State.setV_x (r : VReg) (g : Nat → Elem) : (s.setV r g).x = s.x := rfl
@[simp] theorem State.setV_v (r : VReg) (g : Nat → Elem) :
    (s.setV r g).v =
      if r = 0 then s.v else regSet s.v r ((List.range s.cfg.mvl).map g) := rfl
@[simp] theorem State.setV_f (r : VReg) (g : Nat → Elem) : (s.setV r g).f = s.f := rfl
@[simp] theorem State.setV_vl (r : VReg) (g : Nat → Elem) : (s.setV r g).vl = s.vl := rfl
@[simp] theorem State.setV_vindex (r : VReg) (g : Nat → Elem) :
    (s.setV r g).vindex =
      s.vindex := rfl
@[simp] theorem State.setV_vshamt (r : VReg) (g : Nat → Elem) :
    (s.setV r g).vshamt =
      s.vshamt := rfl
@[simp] theorem State.setV_vstride (r : VReg) (g : Nat → Elem) :
    (s.setV r g).vstride =
      s.vstride := rfl
@[simp] theorem State.setV_vinc (r : VReg) (g : Nat → Elem) : (s.setV r g).vinc = s.vinc := rfl
@[simp] theorem State.setV_vbase (r : VReg) (g : Nat → Elem) : (s.setV r g).vbase = s.vbase := rfl
@[simp] theorem State.setV_acc (r : VReg) (g : Nat → Elem) : (s.setV r g).acc = s.acc := rfl
@[simp] theorem State.setV_lmem (r : VReg) (g : Nat → Elem) : (s.setV r g).lmem = s.lmem := rfl
@[simp] theorem State.setV_mem (r : VReg) (g : Nat → Elem) : (s.setV r g).mem = s.mem := rfl
@[simp] theorem State.setV_drawCount (r : VReg) (g : Nat → Elem) :
    (s.setV r g).drawCount =
      s.drawCount := rfl
@[simp] theorem State.setV_felem (r : VReg) (g : Nat → Elem) (q : FReg) (i : Nat) :
  (s.setV r g).felem q i = s.felem q i := rfl
@[simp] theorem State.setV_xreg (r : VReg) (g : Nat → Elem) (q : SReg) :
  (s.setV r g).xreg q = s.xreg q := rfl
@[simp] theorem State.setV_creg (r : VReg) (g : Nat → Elem) (k : CReg) :
  (s.setV r g).creg k = s.creg k := rfl
@[simp] theorem State.setV_vlen (r : VReg) (g : Nat → Elem) :
  (s.setV r g).vlen = s.vlen := rfl
@[simp] theorem State.setV_active (r : VReg) (g : Nat → Elem) (m : MaskSel) (i : Nat) :
  (s.setV r g).active m i = s.active m i := rfl
@[simp] theorem State.setV_draw (r : VReg) (g : Nat → Elem) (k : DrawKind) (i : Nat) :
  (s.setV r g).draw k i = s.draw k i := rfl

/-! ### setF -/

@[simp] theorem State.setF_cfg (q : FReg) (g : Nat → Bool) : (s.setF q g).cfg = s.cfg := rfl
@[simp] theorem State.setF_pc (q : FReg) (g : Nat → Bool) : (s.setF q g).pc = s.pc := rfl
@[simp] theorem State.setF_startPC (q : FReg) (g : Nat → Bool) :
    (s.setF q g).startPC =
      s.startPC := rfl
@[simp] theorem State.setF_program (q : FReg) (g : Nat → Bool) :
    (s.setF q g).program =
      s.program := rfl
@[simp] theorem State.setF_x (q : FReg) (g : Nat → Bool) : (s.setF q g).x = s.x := rfl
@[simp] theorem State.setF_v (q : FReg) (g : Nat → Bool) : (s.setF q g).v = s.v := rfl
@[simp] theorem State.setF_f (q : FReg) (g : Nat → Bool) :
    (s.setF q g).f =
      if q = 30 ∨ q = 31 then s.f else regSet s.f q ((List.range s.cfg.mvl).map g) := rfl
@[simp] theorem State.setF_vl (q : FReg) (g : Nat → Bool) : (s.setF q g).vl = s.vl := rfl
@[simp] theorem State.setF_vindex (q : FReg) (g : Nat → Bool) :
    (s.setF q g).vindex =
      s.vindex := rfl
@[simp] theorem State.setF_vshamt (q : FReg) (g : Nat → Bool) :
    (s.setF q g).vshamt =
      s.vshamt := rfl
@[simp] theorem State.setF_vstride (q : FReg) (g : Nat → Bool) :
    (s.setF q g).vstride =
      s.vstride := rfl
@[simp] theorem State.setF_vinc (q : FReg) (g : Nat → Bool) : (s.setF q g).vinc = s.vinc := rfl
@[simp] theorem State.setF_vbase (q : FReg) (g : Nat → Bool) : (s.setF q g).vbase = s.vbase := rfl
@[simp] theorem State.setF_acc (q : FReg) (g : Nat → Bool) : (s.setF q g).acc = s.acc := rfl
@[simp] theorem State.setF_lmem (q : FReg) (g : Nat → Bool) : (s.setF q g).lmem = s.lmem := rfl
@[simp] theorem State.setF_mem (q : FReg) (g : Nat → Bool) : (s.setF q g).mem = s.mem := rfl
@[simp] theorem State.setF_drawCount (q : FReg) (g : Nat → Bool) :
    (s.setF q g).drawCount =
      s.drawCount := rfl
@[simp] theorem State.setF_velem (q : FReg) (g : Nat → Bool) (r : VReg) (i : Nat) :
  (s.setF q g).velem r i = s.velem r i := rfl
@[simp] theorem State.setF_xreg (q : FReg) (g : Nat → Bool) (r : SReg) :
  (s.setF q g).xreg r = s.xreg r := rfl
@[simp] theorem State.setF_creg (q : FReg) (g : Nat → Bool) (k : CReg) :
  (s.setF q g).creg k = s.creg k := rfl
@[simp] theorem State.setF_vlen (q : FReg) (g : Nat → Bool) :
  (s.setF q g).vlen = s.vlen := rfl
@[simp] theorem State.setF_draw (q : FReg) (g : Nat → Bool) (k : DrawKind) (i : Nat) :
  (s.setF q g).draw k i = s.draw k i := rfl

/-! ### setCreg -/

@[simp] theorem State.setCreg_cfg (n : CReg) (a : Word) : (s.setCreg n a).cfg = s.cfg := rfl
@[simp] theorem State.setCreg_pc (n : CReg) (a : Word) : (s.setCreg n a).pc = s.pc := rfl
@[simp] theorem State.setCreg_startPC (n : CReg) (a : Word) :
    (s.setCreg n a).startPC =
      s.startPC := rfl
@[simp] theorem State.setCreg_program (n : CReg) (a : Word) :
    (s.setCreg n a).program =
      s.program := rfl
@[simp] theorem State.setCreg_x (n : CReg) (a : Word) : (s.setCreg n a).x = s.x := rfl
@[simp] theorem State.setCreg_v (n : CReg) (a : Word) : (s.setCreg n a).v = s.v := rfl
@[simp] theorem State.setCreg_f (n : CReg) (a : Word) : (s.setCreg n a).f = s.f := rfl
@[simp] theorem State.setCreg_vl (n : CReg) (a : Word) :
    (s.setCreg n a).vl =
      if n.val = 0 then a else s.vl := rfl
@[simp] theorem State.setCreg_vindex (n : CReg) (a : Word) :
    (s.setCreg n a).vindex =
      if n.val = 2 then a else s.vindex := rfl
@[simp] theorem State.setCreg_vshamt (n : CReg) (a : Word) :
    (s.setCreg n a).vshamt =
      if n.val = 3 then a else s.vshamt := rfl
@[simp] theorem State.setCreg_vstride (n : CReg) (a : Word) :
    (s.setCreg n a).vstride =
      Vector.ofFn fun j => if n.val = 32 + j.val then a else s.vstride.get j := rfl
@[simp] theorem State.setCreg_vinc (n : CReg) (a : Word) :
    (s.setCreg n a).vinc =
      Vector.ofFn fun j => if n.val = 40 + j.val then a else s.vinc.get j := rfl
@[simp] theorem State.setCreg_vbase (n : CReg) (a : Word) :
    (s.setCreg n a).vbase =
      Vector.ofFn fun j => if n.val = 48 + j.val then a else s.vbase.get j := rfl
@[simp] theorem State.setCreg_acc (n : CReg) (a : Word) : (s.setCreg n a).acc = s.acc := rfl
@[simp] theorem State.setCreg_lmem (n : CReg) (a : Word) : (s.setCreg n a).lmem = s.lmem := rfl
@[simp] theorem State.setCreg_mem (n : CReg) (a : Word) : (s.setCreg n a).mem = s.mem := rfl
@[simp] theorem State.setCreg_drawCount (n : CReg) (a : Word) :
    (s.setCreg n a).drawCount =
      s.drawCount := rfl
@[simp] theorem State.setCreg_velem (n : CReg) (a : Word) (q : VReg) (i : Nat) :
  (s.setCreg n a).velem q i = s.velem q i := rfl
@[simp] theorem State.setCreg_felem (n : CReg) (a : Word) (q : FReg) (i : Nat) :
  (s.setCreg n a).felem q i = s.felem q i := rfl
@[simp] theorem State.setCreg_xreg (n : CReg) (a : Word) (q : SReg) :
  (s.setCreg n a).xreg q = s.xreg q := rfl
@[simp] theorem State.setCreg_draw (n : CReg) (a : Word) (k : DrawKind) (i : Nat) :
  (s.setCreg n a).draw k i = s.draw k i := rfl

/-! ### setVl -/

@[simp] theorem State.setVl_cfg (n : Nat) : (s.setVl n).cfg = s.cfg := rfl
@[simp] theorem State.setVl_pc (n : Nat) : (s.setVl n).pc = s.pc := rfl
@[simp] theorem State.setVl_startPC (n : Nat) : (s.setVl n).startPC = s.startPC := rfl
@[simp] theorem State.setVl_program (n : Nat) : (s.setVl n).program = s.program := rfl
@[simp] theorem State.setVl_x (n : Nat) : (s.setVl n).x = s.x := rfl
@[simp] theorem State.setVl_v (n : Nat) : (s.setVl n).v = s.v := rfl
@[simp] theorem State.setVl_f (n : Nat) : (s.setVl n).f = s.f := rfl
@[simp] theorem State.setVl_vl (n : Nat) : (s.setVl n).vl = BitVec.ofNat 32 n := rfl
@[simp] theorem State.setVl_vindex (n : Nat) : (s.setVl n).vindex = s.vindex := rfl
@[simp] theorem State.setVl_vshamt (n : Nat) : (s.setVl n).vshamt = s.vshamt := rfl
@[simp] theorem State.setVl_vstride (n : Nat) : (s.setVl n).vstride = s.vstride := rfl
@[simp] theorem State.setVl_vinc (n : Nat) : (s.setVl n).vinc = s.vinc := rfl
@[simp] theorem State.setVl_vbase (n : Nat) : (s.setVl n).vbase = s.vbase := rfl
@[simp] theorem State.setVl_acc (n : Nat) : (s.setVl n).acc = s.acc := rfl
@[simp] theorem State.setVl_lmem (n : Nat) : (s.setVl n).lmem = s.lmem := rfl
@[simp] theorem State.setVl_mem (n : Nat) : (s.setVl n).mem = s.mem := rfl
@[simp] theorem State.setVl_drawCount (n : Nat) : (s.setVl n).drawCount = s.drawCount := rfl
@[simp] theorem State.setVl_velem (n : Nat) (q : VReg) (i : Nat) :
  (s.setVl n).velem q i = s.velem q i := rfl
@[simp] theorem State.setVl_felem (n : Nat) (q : FReg) (i : Nat) :
  (s.setVl n).felem q i = s.felem q i := rfl
@[simp] theorem State.setVl_xreg (n : Nat) (q : SReg) :
  (s.setVl n).xreg q = s.xreg q := rfl
@[simp] theorem State.setVl_draw (n : Nat) (k : DrawKind) (i : Nat) :
  (s.setVl n).draw k i = s.draw k i := rfl

/-! ### autoIncrement -/

@[simp] theorem State.autoIncrement_cfg (vb : VBase) (vi : VInc) :
    (s.autoIncrement vb vi).cfg =
      s.cfg := rfl
@[simp] theorem State.autoIncrement_pc (vb : VBase) (vi : VInc) :
    (s.autoIncrement vb vi).pc =
      s.pc := rfl
@[simp] theorem State.autoIncrement_startPC (vb : VBase) (vi : VInc) :
    (s.autoIncrement vb vi).startPC =
      s.startPC := rfl
@[simp] theorem State.autoIncrement_program (vb : VBase) (vi : VInc) :
    (s.autoIncrement vb vi).program =
      s.program := rfl
@[simp] theorem State.autoIncrement_x (vb : VBase) (vi : VInc) :
    (s.autoIncrement vb vi).x =
      s.x := rfl
@[simp] theorem State.autoIncrement_v (vb : VBase) (vi : VInc) :
    (s.autoIncrement vb vi).v =
      s.v := rfl
@[simp] theorem State.autoIncrement_f (vb : VBase) (vi : VInc) :
    (s.autoIncrement vb vi).f =
      s.f := rfl
@[simp] theorem State.autoIncrement_vl (vb : VBase) (vi : VInc) :
    (s.autoIncrement vb vi).vl =
      s.vl := rfl
@[simp] theorem State.autoIncrement_vindex (vb : VBase) (vi : VInc) :
    (s.autoIncrement vb vi).vindex =
      s.vindex := rfl
@[simp] theorem State.autoIncrement_vshamt (vb : VBase) (vi : VInc) :
    (s.autoIncrement vb vi).vshamt =
      s.vshamt := rfl
@[simp] theorem State.autoIncrement_vstride (vb : VBase) (vi : VInc) :
    (s.autoIncrement vb vi).vstride =
      s.vstride := rfl
@[simp] theorem State.autoIncrement_vinc (vb : VBase) (vi : VInc) :
    (s.autoIncrement vb vi).vinc =
      s.vinc := rfl
@[simp] theorem State.autoIncrement_vbase (vb : VBase) (vi : VInc) :
    (s.autoIncrement vb vi).vbase =
      regSet s.vbase vb (s.vbase.get vb + s.vinc.get vi) := rfl
@[simp] theorem State.autoIncrement_acc (vb : VBase) (vi : VInc) :
    (s.autoIncrement vb vi).acc =
      s.acc := rfl
@[simp] theorem State.autoIncrement_lmem (vb : VBase) (vi : VInc) :
    (s.autoIncrement vb vi).lmem =
      s.lmem := rfl
@[simp] theorem State.autoIncrement_mem (vb : VBase) (vi : VInc) :
    (s.autoIncrement vb vi).mem =
      s.mem := rfl
@[simp] theorem State.autoIncrement_drawCount (vb : VBase) (vi : VInc) :
    (s.autoIncrement vb vi).drawCount =
      s.drawCount := rfl
@[simp] theorem State.autoIncrement_velem (vb : VBase) (vi : VInc) (q : VReg) (i : Nat) :
  (s.autoIncrement vb vi).velem q i = s.velem q i := rfl
@[simp] theorem State.autoIncrement_felem (vb : VBase) (vi : VInc) (q : FReg) (i : Nat) :
  (s.autoIncrement vb vi).felem q i = s.felem q i := rfl
@[simp] theorem State.autoIncrement_xreg (vb : VBase) (vi : VInc) (q : SReg) :
  (s.autoIncrement vb vi).xreg q = s.xreg q := rfl
@[simp] theorem State.autoIncrement_vlen (vb : VBase) (vi : VInc) :
  (s.autoIncrement vb vi).vlen = s.vlen := rfl
@[simp] theorem State.autoIncrement_active (vb : VBase) (vi : VInc) (m : MaskSel) (i : Nat) :
  (s.autoIncrement vb vi).active m i = s.active m i := rfl
@[simp] theorem State.autoIncrement_draw (vb : VBase) (vi : VInc) (k : DrawKind) (i : Nat) :
  (s.autoIncrement vb vi).draw k i = s.draw k i := rfl

/-! ### useDraws -/

@[simp] theorem State.useDraws_cfg : (s.useDraws).cfg = s.cfg := rfl
@[simp] theorem State.useDraws_pc : (s.useDraws).pc = s.pc := rfl
@[simp] theorem State.useDraws_startPC : (s.useDraws).startPC = s.startPC := rfl
@[simp] theorem State.useDraws_program : (s.useDraws).program = s.program := rfl
@[simp] theorem State.useDraws_x : (s.useDraws).x = s.x := rfl
@[simp] theorem State.useDraws_v : (s.useDraws).v = s.v := rfl
@[simp] theorem State.useDraws_f : (s.useDraws).f = s.f := rfl
@[simp] theorem State.useDraws_vl : (s.useDraws).vl = s.vl := rfl
@[simp] theorem State.useDraws_vindex : (s.useDraws).vindex = s.vindex := rfl
@[simp] theorem State.useDraws_vshamt : (s.useDraws).vshamt = s.vshamt := rfl
@[simp] theorem State.useDraws_vstride : (s.useDraws).vstride = s.vstride := rfl
@[simp] theorem State.useDraws_vinc : (s.useDraws).vinc = s.vinc := rfl
@[simp] theorem State.useDraws_vbase : (s.useDraws).vbase = s.vbase := rfl
@[simp] theorem State.useDraws_acc : (s.useDraws).acc = s.acc := rfl
@[simp] theorem State.useDraws_lmem : (s.useDraws).lmem = s.lmem := rfl
@[simp] theorem State.useDraws_mem : (s.useDraws).mem = s.mem := rfl
@[simp] theorem State.useDraws_drawCount : (s.useDraws).drawCount = s.drawCount + 1 := rfl
@[simp] theorem State.useDraws_velem (q : VReg) (i : Nat) :
  (s.useDraws).velem q i = s.velem q i := rfl
@[simp] theorem State.useDraws_felem (q : FReg) (i : Nat) :
  (s.useDraws).felem q i = s.felem q i := rfl
@[simp] theorem State.useDraws_xreg (q : SReg) :
  (s.useDraws).xreg q = s.xreg q := rfl
@[simp] theorem State.useDraws_creg (k : CReg) :
  (s.useDraws).creg k = s.creg k := rfl
@[simp] theorem State.useDraws_vlen :
  (s.useDraws).vlen = s.vlen := rfl
@[simp] theorem State.useDraws_active (m : MaskSel) (i : Nat) :
  (s.useDraws).active m i = s.active m i := rfl

/-! ### flagSideEffect -/

@[simp] theorem State.flagSideEffect_cfg : (s.flagSideEffect).cfg = s.cfg := rfl
@[simp] theorem State.flagSideEffect_pc : (s.flagSideEffect).pc = s.pc := rfl
@[simp] theorem State.flagSideEffect_startPC : (s.flagSideEffect).startPC = s.startPC := rfl
@[simp] theorem State.flagSideEffect_program : (s.flagSideEffect).program = s.program := rfl
@[simp] theorem State.flagSideEffect_x : (s.flagSideEffect).x = s.x := rfl
@[simp] theorem State.flagSideEffect_v : (s.flagSideEffect).v = s.v := rfl
@[simp] theorem State.flagSideEffect_vl : (s.flagSideEffect).vl = s.vl := rfl
@[simp] theorem State.flagSideEffect_vindex : (s.flagSideEffect).vindex = s.vindex := rfl
@[simp] theorem State.flagSideEffect_vshamt : (s.flagSideEffect).vshamt = s.vshamt := rfl
@[simp] theorem State.flagSideEffect_vstride : (s.flagSideEffect).vstride = s.vstride := rfl
@[simp] theorem State.flagSideEffect_vinc : (s.flagSideEffect).vinc = s.vinc := rfl
@[simp] theorem State.flagSideEffect_vbase : (s.flagSideEffect).vbase = s.vbase := rfl
@[simp] theorem State.flagSideEffect_acc : (s.flagSideEffect).acc = s.acc := rfl
@[simp] theorem State.flagSideEffect_lmem : (s.flagSideEffect).lmem = s.lmem := rfl
@[simp] theorem State.flagSideEffect_mem : (s.flagSideEffect).mem = s.mem := rfl
@[simp] theorem State.flagSideEffect_drawCount :
    (s.flagSideEffect).drawCount =
      s.drawCount + 1 := rfl
@[simp] theorem State.flagSideEffect_velem (q : VReg) (i : Nat) :
  (s.flagSideEffect).velem q i = s.velem q i := rfl
@[simp] theorem State.flagSideEffect_xreg (q : SReg) :
  (s.flagSideEffect).xreg q = s.xreg q := rfl
@[simp] theorem State.flagSideEffect_creg (k : CReg) :
  (s.flagSideEffect).creg k = s.creg k := rfl
@[simp] theorem State.flagSideEffect_vlen :
  (s.flagSideEffect).vlen = s.vlen := rfl

/-! ### copyPartials -/

@[simp] theorem State.copyPartials_cfg (vd : VReg) (g : Nat → Elem) :
    (s.copyPartials vd g).cfg =
      s.cfg := rfl
@[simp] theorem State.copyPartials_pc (vd : VReg) (g : Nat → Elem) :
    (s.copyPartials vd g).pc =
      s.pc := rfl
@[simp] theorem State.copyPartials_startPC (vd : VReg) (g : Nat → Elem) :
    (s.copyPartials vd g).startPC =
      s.startPC := rfl
@[simp] theorem State.copyPartials_program (vd : VReg) (g : Nat → Elem) :
    (s.copyPartials vd g).program =
      s.program := rfl
@[simp] theorem State.copyPartials_x (vd : VReg) (g : Nat → Elem) :
    (s.copyPartials vd g).x =
      s.x := rfl
@[simp] theorem State.copyPartials_f (vd : VReg) (g : Nat → Elem) :
    (s.copyPartials vd g).f =
      s.f := rfl
@[simp] theorem State.copyPartials_vl (vd : VReg) (g : Nat → Elem) :
    (s.copyPartials vd g).vl =
      BitVec.ofNat 32 (partialCount s.cfg) := rfl
@[simp] theorem State.copyPartials_vindex (vd : VReg) (g : Nat → Elem) :
    (s.copyPartials vd g).vindex =
      s.vindex := rfl
@[simp] theorem State.copyPartials_vshamt (vd : VReg) (g : Nat → Elem) :
    (s.copyPartials vd g).vshamt =
      s.vshamt := rfl
@[simp] theorem State.copyPartials_vstride (vd : VReg) (g : Nat → Elem) :
    (s.copyPartials vd g).vstride =
      s.vstride := rfl
@[simp] theorem State.copyPartials_vinc (vd : VReg) (g : Nat → Elem) :
    (s.copyPartials vd g).vinc =
      s.vinc := rfl
@[simp] theorem State.copyPartials_vbase (vd : VReg) (g : Nat → Elem) :
    (s.copyPartials vd g).vbase =
      s.vbase := rfl
@[simp] theorem State.copyPartials_acc (vd : VReg) (g : Nat → Elem) :
    (s.copyPartials vd g).acc =
      s.acc := rfl
@[simp] theorem State.copyPartials_lmem (vd : VReg) (g : Nat → Elem) :
    (s.copyPartials vd g).lmem =
      s.lmem := rfl
@[simp] theorem State.copyPartials_mem (vd : VReg) (g : Nat → Elem) :
    (s.copyPartials vd g).mem =
      s.mem := rfl
@[simp] theorem State.copyPartials_drawCount (vd : VReg) (g : Nat → Elem) :
    (s.copyPartials vd g).drawCount =
      s.drawCount := rfl
@[simp] theorem State.copyPartials_felem (vd : VReg) (g : Nat → Elem) (q : FReg) (i : Nat) :
  (s.copyPartials vd g).felem q i = s.felem q i := rfl
@[simp] theorem State.copyPartials_xreg (vd : VReg) (g : Nat → Elem) (q : SReg) :
  (s.copyPartials vd g).xreg q = s.xreg q := rfl
@[simp] theorem State.copyPartials_draw (vd : VReg) (g : Nat → Elem) (k : DrawKind) (i : Nat) :
  (s.copyPartials vd g).draw k i = s.draw k i := rfl

/-! ### zeroAccumulators -/

@[simp] theorem State.zeroAccumulators_cfg : (s.zeroAccumulators).cfg = s.cfg := rfl
@[simp] theorem State.zeroAccumulators_pc : (s.zeroAccumulators).pc = s.pc := rfl
@[simp] theorem State.zeroAccumulators_startPC : (s.zeroAccumulators).startPC = s.startPC := rfl
@[simp] theorem State.zeroAccumulators_program : (s.zeroAccumulators).program = s.program := rfl
@[simp] theorem State.zeroAccumulators_x : (s.zeroAccumulators).x = s.x := rfl
@[simp] theorem State.zeroAccumulators_v : (s.zeroAccumulators).v = s.v := rfl
@[simp] theorem State.zeroAccumulators_f : (s.zeroAccumulators).f = s.f := rfl
@[simp] theorem State.zeroAccumulators_vl : (s.zeroAccumulators).vl = s.vl := rfl
@[simp] theorem State.zeroAccumulators_vindex : (s.zeroAccumulators).vindex = s.vindex := rfl
@[simp] theorem State.zeroAccumulators_vshamt : (s.zeroAccumulators).vshamt = s.vshamt := rfl
@[simp] theorem State.zeroAccumulators_vstride : (s.zeroAccumulators).vstride = s.vstride := rfl
@[simp] theorem State.zeroAccumulators_vinc : (s.zeroAccumulators).vinc = s.vinc := rfl
@[simp] theorem State.zeroAccumulators_vbase : (s.zeroAccumulators).vbase = s.vbase := rfl
@[simp] theorem State.zeroAccumulators_acc :
    (s.zeroAccumulators).acc =
      List.replicate (accCount s.cfg) { value := 0, written := true } := rfl
@[simp] theorem State.zeroAccumulators_lmem : (s.zeroAccumulators).lmem = s.lmem := rfl
@[simp] theorem State.zeroAccumulators_mem : (s.zeroAccumulators).mem = s.mem := rfl
@[simp] theorem State.zeroAccumulators_drawCount :
    (s.zeroAccumulators).drawCount =
      s.drawCount := rfl
@[simp] theorem State.zeroAccumulators_velem (q : VReg) (i : Nat) :
  (s.zeroAccumulators).velem q i = s.velem q i := rfl
@[simp] theorem State.zeroAccumulators_felem (q : FReg) (i : Nat) :
  (s.zeroAccumulators).felem q i = s.felem q i := rfl
@[simp] theorem State.zeroAccumulators_xreg (q : SReg) :
  (s.zeroAccumulators).xreg q = s.xreg q := rfl
@[simp] theorem State.zeroAccumulators_creg (k : CReg) :
  (s.zeroAccumulators).creg k = s.creg k := rfl
@[simp] theorem State.zeroAccumulators_vlen :
  (s.zeroAccumulators).vlen = s.vlen := rfl
@[simp] theorem State.zeroAccumulators_active (m : MaskSel) (i : Nat) :
  (s.zeroAccumulators).active m i = s.active m i := rfl
@[simp] theorem State.zeroAccumulators_draw (k : DrawKind) (i : Nat) :
  (s.zeroAccumulators).draw k i = s.draw k i := rfl

/-! ### scalarCoreStep -/

@[simp] theorem State.scalarCoreStep_cfg : (s.scalarCoreStep).cfg = s.cfg := rfl
@[simp] theorem State.scalarCoreStep_pc : (s.scalarCoreStep).pc = s.draw .scalarPc 0 := rfl
@[simp] theorem State.scalarCoreStep_startPC : (s.scalarCoreStep).startPC = s.startPC := rfl
@[simp] theorem State.scalarCoreStep_program : (s.scalarCoreStep).program = s.program := rfl
@[simp] theorem State.scalarCoreStep_v : (s.scalarCoreStep).v = s.v := rfl
@[simp] theorem State.scalarCoreStep_f : (s.scalarCoreStep).f = s.f := rfl
@[simp] theorem State.scalarCoreStep_vl : (s.scalarCoreStep).vl = s.vl := rfl
@[simp] theorem State.scalarCoreStep_vindex : (s.scalarCoreStep).vindex = s.vindex := rfl
@[simp] theorem State.scalarCoreStep_vshamt : (s.scalarCoreStep).vshamt = s.vshamt := rfl
@[simp] theorem State.scalarCoreStep_vstride : (s.scalarCoreStep).vstride = s.vstride := rfl
@[simp] theorem State.scalarCoreStep_vinc : (s.scalarCoreStep).vinc = s.vinc := rfl
@[simp] theorem State.scalarCoreStep_vbase : (s.scalarCoreStep).vbase = s.vbase := rfl
@[simp] theorem State.scalarCoreStep_acc : (s.scalarCoreStep).acc = s.acc := rfl
@[simp] theorem State.scalarCoreStep_lmem : (s.scalarCoreStep).lmem = s.lmem := rfl
@[simp] theorem State.scalarCoreStep_drawCount :
    (s.scalarCoreStep).drawCount =
      s.drawCount + 1 := rfl
@[simp] theorem State.scalarCoreStep_velem (q : VReg) (i : Nat) :
  (s.scalarCoreStep).velem q i = s.velem q i := rfl
@[simp] theorem State.scalarCoreStep_felem (q : FReg) (i : Nat) :
  (s.scalarCoreStep).felem q i = s.felem q i := rfl
@[simp] theorem State.scalarCoreStep_creg (k : CReg) :
  (s.scalarCoreStep).creg k = s.creg k := rfl
@[simp] theorem State.scalarCoreStep_vlen :
  (s.scalarCoreStep).vlen = s.vlen := rfl
@[simp] theorem State.scalarCoreStep_active (m : MaskSel) (i : Nat) :
  (s.scalarCoreStep).active m i = s.active m i := rfl

end Sys2Proof.Machine
end

