-- ==== Sys2Proof/Laws/Registers.lean ====
section
/-! SUPPORT. Reading a register after writing one: the read-after-write laws of every register file,
with the hardwired registers (R21, R25, R31). -/

namespace Sys2Proof.Machine

variable (s : State)

@[simp] theorem regSet_get {α : Type} {n : Nat} (v : Vector α n) (i j : Fin n) (a : α) :
    (regSet v i a).get j = if i = j then a else v.get j := by
  simp [regSet, Vector.get_eq_getElem, Vector.getElem_set, Fin.ext_iff]

@[simp] theorem ofFn_get {α : Type} {n : Nat} (g : Fin n → α) (j : Fin n) :
    (Vector.ofFn g).get j = g j := by
  simp [Vector.get_eq_getElem]

theorem getD_map_range {α : Type} (g : Nat → α) (n i : Nat) (d : α) :
    ((List.range n).map g).getD i d = if i < n then g i else d := by
  by_cases h : i < n <;> simp [List.getD, h]

/-! ### Hardwired registers -/

@[simp] theorem State.velem_zero (i : Nat) : s.velem 0 i = 0 := by simp [State.velem]

@[simp] theorem State.felem_vfzero (i : Nat) : s.felem 30 i = false := by simp [State.felem]

@[simp] theorem State.felem_vfone (i : Nat) : s.felem 31 i = true := by simp [State.felem]

@[simp] theorem State.xreg_zero : s.xreg 0 = 0 := by simp [State.xreg]

/-! ### Read after write -/

theorem State.velem_setV (r q : VReg) (g : Nat → Elem) (i : Nat) :
    (s.setV r g).velem q i =
      if r ≠ 0 ∧ r = q then (if i < s.cfg.mvl then g i else 0) else s.velem q i := by
  by_cases hr : r = 0
  · simp [State.velem, hr]
  · by_cases hq : r = q
    · subst hq; simp [State.velem, hr, -List.getD_eq_getElem?_getD, getD_map_range]
    · simp [State.velem, hr, hq]

theorem State.velem_setV_ne {r q : VReg} (h : q ≠ r) (g : Nat → Elem) (i : Nat) :
    (s.setV r g).velem q i = s.velem q i := by
  simp [State.velem_setV, Ne.symm h]

theorem State.velem_setV_self {r : VReg} (h : r ≠ 0) {i : Nat} (hi : i < s.cfg.mvl)
    (g : Nat → Elem) : (s.setV r g).velem r i = g i := by
  simp [State.velem_setV, h, hi]

theorem State.felem_setF (r q : FReg) (g : Nat → Bool) (i : Nat) :
    (s.setF r g).felem q i =
      if r ≠ 30 ∧ r ≠ 31 ∧ r = q then (if i < s.cfg.mvl then g i else false) else s.felem q i := by
  by_cases h0 : r = 30
  · simp [State.felem, h0]
  · by_cases h1 : r = 31
    · simp [State.felem, h1]
    · by_cases hq : r = q
      · subst hq; simp [State.felem, h0, h1, -List.getD_eq_getElem?_getD, getD_map_range]
      · simp [State.felem, h0, h1, hq]

theorem State.felem_setF_ne {r q : FReg} (h : q ≠ r) (g : Nat → Bool) (i : Nat) :
    (s.setF r g).felem q i = s.felem q i := by
  simp [State.felem_setF, Ne.symm h]

theorem State.felem_setF_self {r : FReg} (h0 : r ≠ 30) (h1 : r ≠ 31) {i : Nat}
    (hi : i < s.cfg.mvl) (g : Nat → Bool) : (s.setF r g).felem r i = g i := by
  simp [State.felem_setF, h0, h1, hi]

/-- The side effect of R27 leaves every flag register but `$vf16` and `$vf17` as it was. -/
theorem State.felem_flagSideEffect {q : FReg} (h6 : q ≠ 16) (h7 : q ≠ 17) (i : Nat) :
    s.flagSideEffect.felem q i = s.felem q i := by
  simp [State.felem, State.flagSideEffect, Ne.symm h6, Ne.symm h7]

@[simp] theorem State.active_flagSideEffect (m : MaskSel) (i : Nat) :
    s.flagSideEffect.active m i = s.active m i := by
  have h : s.flagSideEffect.felem (maskFlag m) i = s.felem (maskFlag m) i := by
    apply State.felem_flagSideEffect <;> cases m <;> decide
  unfold State.active; rw [h]; rfl

theorem State.xreg_setX (r q : SReg) (a : Word) :
    (s.setX r a).xreg q = if r ≠ 0 ∧ r = q then a else s.xreg q := by
  by_cases hr : r = 0
  · simp [State.xreg, hr]
  · by_cases hq : r = q
    · subst hq; simp [State.xreg, hr]
    · simp [State.xreg, hr, hq]

/-! ### Control registers -/

theorem State.creg_reserved {n : CReg} (h : reservedCreg n = true) : s.creg n = none := by
  simp [State.creg, h]

theorem State.creg_vl : s.creg 0 = some s.vl := rfl

theorem State.creg_vindex : s.creg 2 = some s.vindex := rfl

theorem State.creg_vshamt : s.creg 3 = some s.vshamt := rfl

/-- From 32 on the control registers are `vstride`, `vinc` and `vbase`, by their numbers (R36). -/
theorem State.creg_indexed (n : CReg) (h : 32 ≤ n.val) :
    s.creg n = if h : n.val < 40 then some (s.vstride.get ⟨n.val - 32, by omega⟩)
      else if h : n.val < 48 then some (s.vinc.get ⟨n.val - 40, by omega⟩)
      else some (s.vbase.get ⟨n.val - 48, by omega⟩) := by
  have e : reservedCreg n = false := by simp [reservedCreg]; omega
  have hne : ∀ k, k < 32 → n.val ≠ k := fun k hk => by omega
  simp [State.creg, e, hne]

theorem State.creg_vstride (n : CReg) (h : 32 ≤ n.val) (h' : n.val < 40) :
    s.creg n = some (s.vstride.get ⟨n.val - 32, by omega⟩) := by
  rw [State.creg_indexed s n h, dif_pos h']

theorem State.creg_vinc (n : CReg) (h : 40 ≤ n.val) (h' : n.val < 48) :
    s.creg n = some (s.vinc.get ⟨n.val - 40, by omega⟩) := by
  rw [State.creg_indexed s n (by omega), dif_neg (Nat.not_lt.mpr h), dif_pos h']

theorem State.creg_vbase (n : CReg) (h : 48 ≤ n.val) :
    s.creg n = some (s.vbase.get ⟨n.val - 48, by omega⟩) := by
  have h40 : ¬ n.val < 40 := by omega
  rw [State.creg_indexed s n (by omega), dif_neg h40, dif_neg (Nat.not_lt.mpr h)]

/-- Every control register number is reserved, static or one of the writable ones (R32, R34, R37). -/
theorem creg_class (n : CReg) :
    reservedCreg n = true ∨ n = 0 ∨ n = 2 ∨ n = 3 ∨
      (n = 1 ∨ n = 28 ∨ n = 29 ∨ n = 30 ∨ n = 31) ∨ 32 ≤ n.val := by
  simp only [reservedCreg, Fin.ext_iff, Bool.and_eq_true, decide_eq_true_eq]
  have := n.isLt
  simp
  omega

/-- The static control registers depend on the parameters alone (R34). -/
theorem State.creg_static {n : CReg} (h : staticCreg n = true) {t : State} (e : t.cfg = s.cfg) :
    t.creg n = s.creg n := by
  have : n = 1 ∨ n = 28 ∨ n = 29 ∨ n = 30 ∨ n = 31 := by
    simp only [staticCreg, Fin.ext_iff, Bool.or_eq_true, beq_iff_eq, Bool.and_eq_true,
      decide_eq_true_eq] at *
    simp
    omega
  rcases this with rfl | rfl | rfl | rfl | rfl <;> simp [State.creg, reservedCreg, e]

/-- Reading the control register that `vmstc` has written (R280, R281). -/
theorem State.creg_setCreg_self {n : CReg} (hr : reservedCreg n = false) (hs : staticCreg n = false)
    (a : Word) : (s.setCreg n a).creg n = some a := by
  rcases creg_class n with h | rfl | rfl | rfl | h | h
  · simp [hr] at h
  · simp [State.creg, State.setCreg, reservedCreg]
  · simp [State.creg, State.setCreg, reservedCreg]
  · simp [State.creg, State.setCreg, reservedCreg]
  · rcases h with rfl | rfl | rfl | rfl | rfl <;> simp [staticCreg] at hs
  · by_cases h0 : n.val < 40
    · rw [State.creg_vstride _ n h h0, State.setCreg, ofFn_get, if_pos (by simp; omega)]
    · by_cases h1 : n.val < 48
      · rw [State.creg_vinc _ n (by omega) h1, State.setCreg, ofFn_get, if_pos (by simp; omega)]
      · rw [State.creg_vbase _ n (by omega), State.setCreg, ofFn_get, if_pos (by simp; omega)]

/-- `vmstc` leaves every other control register as it was (R280). -/
theorem State.creg_setCreg_ne {n k : CReg} (h : k ≠ n) (a : Word) :
    (s.setCreg n a).creg k = s.creg k := by
  have hv : n.val ≠ k.val := fun e => h (Fin.ext e.symm)
  rcases creg_class k with hk | rfl | rfl | rfl | hk | hk
  · rw [State.creg_reserved _ hk, State.creg_reserved _ hk]
  · rw [State.creg_vl, State.creg_vl]; exact congrArg some (if_neg hv)
  · rw [State.creg_vindex, State.creg_vindex]; exact congrArg some (if_neg hv)
  · rw [State.creg_vshamt, State.creg_vshamt]; exact congrArg some (if_neg hv)
  · exact State.creg_static s (by rcases hk with rfl | rfl | rfl | rfl | rfl <;> decide) rfl
  · by_cases h0 : k.val < 40
    · rw [State.creg_vstride _ k hk h0, State.creg_vstride _ k hk h0, State.setCreg, ofFn_get,
        if_neg (by simp; omega)]
    · by_cases h1 : k.val < 48
      · rw [State.creg_vinc _ k (by omega) h1, State.creg_vinc _ k (by omega) h1, State.setCreg,
          ofFn_get, if_neg (by simp; omega)]
      · rw [State.creg_vbase _ k (by omega), State.creg_vbase _ k (by omega), State.setCreg,
          ofFn_get, if_neg (by simp; omega)]

/-- A change of `VL` leaves every control register but `$vc0` as it was. -/
theorem State.creg_setVl {k : CReg} (h : k ≠ 0) (n : Nat) : (s.setVl n).creg k = s.creg k := by
  have hv : k.val ≠ 0 := fun e => h (Fin.ext e)
  simp only [State.creg, State.setVl, if_neg hv]

/-- The auto-increment leaves every control register but the base register as it was (R212). -/
theorem State.creg_autoIncrement_ne {vb : VBase} {vi : VInc} {k : CReg} (h : k.val ≠ 48 + vb.val) :
    (s.autoIncrement vb vi).creg k = s.creg k := by
  rcases creg_class k with hk | rfl | rfl | rfl | hk | hk
  · rw [State.creg_reserved _ hk, State.creg_reserved _ hk]
  · rfl
  · rfl
  · rfl
  · exact State.creg_static s (by rcases hk with rfl | rfl | rfl | rfl | rfl <;> decide) rfl
  · by_cases h0 : k.val < 40
    · rw [State.creg_vstride _ k hk h0, State.creg_vstride _ k hk h0]; rfl
    · by_cases h1 : k.val < 48
      · rw [State.creg_vinc _ k (by omega) h1, State.creg_vinc _ k (by omega) h1]; rfl
      · rw [State.creg_vbase _ k (by omega), State.creg_vbase _ k (by omega), State.autoIncrement,
          regSet_get, if_neg (by simp [Fin.ext_iff]; omega)]

/-- The base register after the auto-increment (R212). -/
theorem State.creg_autoIncrement_self (vb : VBase) (vi : VInc) :
    (s.autoIncrement vb vi).creg ⟨48 + vb.val, by omega⟩ =
      some (s.vbase.get vb + s.vinc.get vi) := by
  rw [State.creg_vbase _ _ (by simp)]
  simp [State.autoIncrement]

end Sys2Proof.Machine
end

