-- ==== Sys2Proof/Laws/Memory.lean ====
section
/-! SUPPORT. The laws of the cell lists and of main memory: a read after a write, and that every
memory operation keeps the canonical form (R60, R61, R63). -/

namespace Sys2Proof.Machine

/-! ### Lists of cells -/

section Cells

variable {α : Type}

theorem cellGet_cellPut (j k : Nat) (a : α) (l : List (Nat × α)) :
    cellGet j (cellPut k a l) = if j = k then some a else cellGet j l := by
  induction l with
  | nil => simp [cellPut, cellGet]
  | cons c t ih =>
    obtain ⟨i, b⟩ := c
    simp only [cellPut]
    split_ifs <;> simp_all [cellGet]

theorem cellGet_cellErase (j k : Nat) (l : List (Nat × α)) :
    cellGet j (cellErase k l) = if j = k then none else cellGet j l := by
  induction l with
  | nil => simp [cellErase, cellGet]
  | cons c t ih =>
    obtain ⟨i, b⟩ := c
    simp only [cellErase, List.filter_cons] at *
    by_cases h : i = k
    · subst h
      simp only [bne_self_eq_false, Bool.false_eq_true, if_false, ih, cellGet]
      split_ifs <;> rfl
    · have h' : (i != k) = true := by simpa using h
      simp only [h', if_true, cellGet, ih]
      split_ifs <;> simp_all

theorem cellGet_eq_none {k : Nat} {l : List (Nat × α)} (h : ∀ c ∈ l, c.1 ≠ k) :
    cellGet k l = none := by
  induction l with
  | nil => rfl
  | cons c t ih =>
    obtain ⟨i, b⟩ := c
    have h0 : k ≠ i := fun e => h (i, b) (by simp) e.symm
    simp only [cellGet, if_neg h0]
    exact ih fun c hc => h c (by simp [hc])

theorem cellGet_mem {k : Nat} {a : α} {l : List (Nat × α)} (h : cellGet k l = some a) :
    (k, a) ∈ l := by
  induction l with
  | nil => simp [cellGet] at h
  | cons c t ih =>
    obtain ⟨i, b⟩ := c
    simp only [cellGet] at h
    split_ifs at h with e
    · simp_all
    · simp [ih h]

theorem mem_cellPut {k : Nat} {a : α} {l : List (Nat × α)} {c : Nat × α}
    (h : c ∈ cellPut k a l) : c = (k, a) ∨ c ∈ l := by
  induction l with
  | nil => simp_all [cellPut]
  | cons d t ih =>
    obtain ⟨i, b⟩ := d
    simp only [cellPut] at h
    split_ifs at h <;> simp only [List.mem_cons] at h ⊢ <;> tauto

theorem risingKeys_iff (l : List (Nat × α)) :
    risingKeys l = true ↔ l.Pairwise fun c d => c.1 < d.1 := by
  induction l with
  | nil => simp [risingKeys]
  | cons c t ih =>
    cases t with
    | nil => simp [risingKeys]
    | cons d t =>
      simp only [risingKeys, Bool.and_eq_true, decide_eq_true_eq, ih]
      constructor
      · rintro ⟨h, p⟩
        refine List.pairwise_cons.mpr ⟨fun e he => ?_, p⟩
        rcases List.mem_cons.mp he with rfl | he
        · exact h
        · exact Nat.lt_trans h ((List.pairwise_cons.mp p).1 e he)
      · intro p
        exact ⟨(List.pairwise_cons.mp p).1 d (by simp), (List.pairwise_cons.mp p).2⟩

theorem risingKeys_cellErase (k : Nat) {l : List (Nat × α)} (h : risingKeys l = true) :
    risingKeys (cellErase k l) = true := by
  rw [risingKeys_iff] at *
  exact h.filter _

theorem risingKeys_cellPut (k : Nat) (a : α) {l : List (Nat × α)} (h : risingKeys l = true) :
    risingKeys (cellPut k a l) = true := by
  rw [risingKeys_iff] at *
  induction l with
  | nil => simp [cellPut]
  | cons c t ih =>
    obtain ⟨i, b⟩ := c
    have hc := List.pairwise_cons.mp h
    simp only [cellPut]
    split_ifs with h1 h2
    · refine List.pairwise_cons.mpr ⟨fun d hd => ?_, h⟩
      rcases List.mem_cons.mp hd with rfl | hd
      · exact h1
      · exact Nat.lt_trans h1 (hc.1 d hd)
    · subst h2
      exact List.pairwise_cons.mpr ⟨hc.1, hc.2⟩
    · refine List.pairwise_cons.mpr ⟨fun d hd => ?_, ih hc.2⟩
      rcases mem_cellPut hd with rfl | hd
      · show i < k; omega
      · exact hc.1 d hd

end Cells

/-! ### Reading memory -/

/-- A byte after a write reads as written, every other byte as before (R61). -/
theorem Memory.read_write (m : Memory) (a c : Nat) (b : Byte) :
    (Memory.write m a b).read c = if c = a then b else m.read c := by
  unfold Memory.write Memory.read
  split_ifs with h1 h2 h2
  · rw [cellGet_cellErase, if_pos h2]; exact h1.symm
  · rw [cellGet_cellErase, if_neg h2]
  · rw [cellGet_cellPut, if_pos h2]; rfl
  · rw [cellGet_cellPut, if_neg h2]

@[simp] theorem Memory.read_nil (a : Nat) : Memory.read [] a = unlistedByte := rfl

/-- A byte after a store of `n` bytes (R63). -/
theorem Memory.read_writeLE (n : Nat) : ∀ (m : Memory) (a v c : Nat),
    (Memory.writeLE m a n v).read c =
      if a ≤ c ∧ c < a + n then BitVec.ofNat 8 (v / 256 ^ (c - a)) else m.read c := by
  induction n with
  | zero => intro m a v c; rw [if_neg (by omega)]; rfl
  | succ n ih =>
    intro m a v c
    rw [Memory.writeLE, ih, Memory.read_write]
    by_cases h0 : c = a
    · subst h0
      rw [if_neg (by omega), if_pos rfl, if_pos (by omega)]
      simp
    · by_cases h : a + 1 ≤ c ∧ c < a + 1 + n
      · rw [if_pos h, if_pos (by omega), Nat.div_div_eq_div_mul, ← Nat.pow_succ']
        congr 3
        omega
      · rw [if_neg h, if_neg h0, if_neg (by omega)]

/-- A load of `n` bytes gives back what a store of `n` bytes wrote there (R63). -/
theorem Memory.readLE_writeLE (n : Nat) : ∀ (m : Memory) (a v : Nat),
    Memory.readLE (Memory.writeLE m a n v) a n = v % 256 ^ n := by
  suffices h : ∀ n (m : Memory) (a v : Nat),
      (∀ j, j < n → m.read (a + j) = BitVec.ofNat 8 (v / 256 ^ j)) →
      Memory.readLE m a n = v % 256 ^ n by
    intro m a v
    refine h n _ a v fun j hj => ?_
    rw [Memory.read_writeLE, if_pos (by omega)]
    simp
  intro n
  induction n with
  | zero => intro m a v _; simp [Memory.readLE, Nat.mod_one]
  | succ n ih =>
    intro m a v h
    rw [Memory.readLE, ih m (a + 1) (v / 256) fun j hj => ?_]
    · have h0 := h 0 (by omega)
      simp only [Nat.add_zero, Nat.pow_zero, Nat.div_one] at h0
      rw [h0, BitVec.toNat_ofNat, Nat.pow_succ' (m := 256), Nat.mod_mul (a := 256)]
    · have hj' := h (j + 1) (by omega)
      rw [Nat.add_assoc, Nat.add_comm 1 j, hj', Nat.div_div_eq_div_mul, Nat.pow_succ']

/-! ### The canonical form -/

theorem Memory.wf_iff (m : Memory) :
    m.wf = true ↔ risingKeys m = true ∧ ∀ c ∈ m, c.2 ≠ unlistedByte := by
  simp [Memory.wf]

/-- Every write keeps the canonical form. -/
theorem Memory.wf_write {m : Memory} (h : m.wf = true) (a : Nat) (b : Byte) :
    (Memory.write m a b).wf = true := by
  rw [Memory.wf_iff] at *
  unfold Memory.write
  split_ifs with hb
  · exact ⟨risingKeys_cellErase a h.1, fun c hc => h.2 c (List.mem_filter.mp hc).1⟩
  · refine ⟨risingKeys_cellPut a b h.1, fun c hc => ?_⟩
    rcases mem_cellPut hc with rfl | hc
    · exact hb
    · exact h.2 c hc

theorem Memory.wf_writeLE (n : Nat) : ∀ {m : Memory} (_ : m.wf = true) (a v : Nat),
    (Memory.writeLE m a n v).wf = true := by
  induction n with
  | zero => intro m h a v; exact h
  | succ n ih => intro m h a v; exact ih (Memory.wf_write h _ _) _ _

theorem Memory.wf_foldl {β : Type} (g : Memory → β → Memory)
    (hg : ∀ m b, m.wf = true → (g m b).wf = true) (l : List β) :
    ∀ {m : Memory}, m.wf = true → (l.foldl g m).wf = true := by
  induction l with
  | nil => intro m h; exact h
  | cons b t ih => intro m h; exact ih (hg m b h)

theorem Memory.wf_nil : Memory.wf [] = true := rfl

/-- The addresses a write may list are those already listed and its own. -/
theorem Memory.mem_write {m : Memory} {a : Nat} {b : Byte} {c : Host.Cell}
    (h : c ∈ Memory.write m a b) : c.1 = a ∨ c ∈ m := by
  unfold Memory.write at h
  split_ifs at h
  · exact .inr (List.mem_filter.mp h).1
  · rcases mem_cellPut h with rfl | h
    · exact .inl rfl
    · exact .inr h

theorem Memory.mem_writeLE (n : Nat) : ∀ {m : Memory} {a v : Nat} {c : Host.Cell},
    c ∈ Memory.writeLE m a n v → (a ≤ c.1 ∧ c.1 < a + n) ∨ c ∈ m := by
  induction n with
  | zero => intro m a v c h; exact .inr h
  | succ n ih =>
    intro m a v c h
    rcases ih h with h | h
    · exact .inl (by omega)
    · rcases Memory.mem_write h with h | h
      · exact .inl (by omega)
      · exact .inr h

/-- Memory right after reset is in the canonical form. -/
theorem State.wf_resetOf (c : Config) (start : Word) : (State.resetOf c start).mem.wf = true := rfl

end Sys2Proof.Machine
end

