-- ==== Sys2Proof/Laws/Frames.lean ====
section
/-! SUPPORT. Frames: what each update of the state leaves unchanged, and how frames compose. -/

namespace Sys2Proof.Machine

variable (s : State)

theorem unchangedBut_refl : unchangedBut {} s s := by
  simp [unchangedBut]

/-- Frames compose: what two updates may change is what either may change. -/
theorem unchangedBut_comp {a b : Frame} {s t u : State} (h : unchangedBut a s t)
    (k : unchangedBut b t u) :
    unchangedBut { v := a.v ++ b.v, f := a.f ++ b.f, x := a.x ++ b.x, c := a.c ++ b.c,
                   acc := a.acc || b.acc, lmem := a.lmem || b.lmem, mem := a.mem || b.mem } s u := by
  obtain ⟨⟨h1, h2, h3⟩, hv, hf, hx, hc, ha, hl, hm⟩ := h
  obtain ⟨⟨k1, k2, k3⟩, kv, kf, kx, kc, ka, kl, km⟩ := k
  refine ⟨⟨k1.trans h1, k2.trans h2, k3.trans h3⟩, ?_, ?_, ?_, ?_, ?_, ?_, ?_⟩
  · intro r hr i; simp only [List.mem_append, not_or] at hr; rw [kv r hr.2, hv r hr.1]
  · intro r hr i; simp only [List.mem_append, not_or] at hr; rw [kf r hr.2, hf r hr.1]
  · intro r hr; simp only [List.mem_append, not_or] at hr; rw [kx r hr.2, hx r hr.1]
  · intro r hr; simp only [List.mem_append, not_or] at hr; rw [kc r hr.2, hc r hr.1]
  · intro e; simp only [Bool.or_eq_false_iff] at e; rw [ka e.2, ha e.1]
  · intro e; simp only [Bool.or_eq_false_iff] at e; rw [kl e.2, hl e.1]
  · intro e a; simp only [Bool.or_eq_false_iff] at e; rw [km e.2, hm e.1]

/-- The frame `b` allows every change that `a` allows. -/
def Frame.sub (a b : Frame) : Prop :=
  (a.v ⊆ b.v ∧ a.f ⊆ b.f ∧ a.x ⊆ b.x ∧ a.c ⊆ b.c) ∧
  (a.acc = true → b.acc = true) ∧ (a.lmem = true → b.lmem = true) ∧ (a.mem = true → b.mem = true)

/-- A frame may be widened. -/
theorem unchangedBut_mono {a b : Frame} {s t : State} (h : unchangedBut a s t) (hab : a.sub b) :
    unchangedBut b s t := by
  obtain ⟨h0, kv, kf, kx, kc, ka, kl, km⟩ := h
  obtain ⟨⟨hv, hf, hx, hc⟩, ha, hl, hm⟩ := hab
  refine ⟨h0, fun r hr => kv r (mt (@hv r) hr), fun r hr => kf r (mt (@hf r) hr),
    fun r hr => kx r (mt (@hx r) hr), fun r hr => kc r (mt (@hc r) hr), ?_, ?_, ?_⟩
  · intro e; exact ka (by cases h : a.acc; rfl; rw [ha h] at e; exact e)
  · intro e; exact kl (by cases h : a.lmem; rfl; rw [hl h] at e; exact e)
  · intro e; exact km (by cases h : a.mem; rfl; rw [hm h] at e; exact e)

theorem unchangedBut_advance : unchangedBut {} s s.advance := by
  simp [unchangedBut]

theorem unchangedBut_useDraws : unchangedBut {} s s.useDraws := by
  simp [unchangedBut]

theorem unchangedBut_setV (vd : VReg) (g : Nat → Elem) : unchangedBut { v := [vd] } s (s.setV vd g) := by
  refine ⟨⟨rfl, rfl, rfl⟩, fun r hr i => ?_, fun _ _ _ => rfl, fun _ _ => rfl, fun _ _ => rfl,
    fun _ => rfl, fun _ => rfl, fun _ _ => rfl⟩
  exact State.velem_setV_ne s (by simpa using hr) g i

theorem unchangedBut_setF (fd : FReg) (g : Nat → Bool) : unchangedBut { f := [fd] } s (s.setF fd g) := by
  refine ⟨⟨rfl, rfl, rfl⟩, fun _ _ _ => rfl, fun r hr i => ?_, fun _ _ => rfl, fun _ _ => rfl,
    fun _ => rfl, fun _ => rfl, fun _ _ => rfl⟩
  exact State.felem_setF_ne s (by simpa using hr) g i

theorem unchangedBut_setX (r : SReg) (a : Word) : unchangedBut { x := [r] } s (s.setX r a) := by
  refine ⟨⟨rfl, rfl, rfl⟩, fun _ _ _ => rfl, fun _ _ _ => rfl, fun q hq => ?_, fun _ _ => rfl,
    fun _ => rfl, fun _ => rfl, fun _ _ => rfl⟩
  rw [State.xreg_setX, if_neg]
  rintro ⟨_, rfl⟩
  simp at hq

theorem unchangedBut_setCreg (n : CReg) (a : Word) : unchangedBut { c := [n] } s (s.setCreg n a) := by
  refine ⟨⟨rfl, rfl, rfl⟩, fun _ _ _ => rfl, fun _ _ _ => rfl, fun _ _ => rfl, fun k hk => ?_,
    fun _ => rfl, fun _ => rfl, fun _ _ => rfl⟩
  exact State.creg_setCreg_ne s (by simpa using hk) a

theorem unchangedBut_setVl (n : Nat) : unchangedBut { c := [0] } s (s.setVl n) := by
  refine ⟨⟨rfl, rfl, rfl⟩, fun _ _ _ => rfl, fun _ _ _ => rfl, fun _ _ => rfl, fun k hk => ?_,
    fun _ => rfl, fun _ => rfl, fun _ _ => rfl⟩
  exact State.creg_setVl s (by simpa using hk) n

theorem unchangedBut_autoIncrement (vb : VBase) (vi : VInc) :
    unchangedBut { c := [baseCreg vb] } s (s.autoIncrement vb vi) := by
  refine ⟨⟨rfl, rfl, rfl⟩, fun _ _ _ => rfl, fun _ _ _ => rfl, fun _ _ => rfl, fun k hk => ?_,
    fun _ => rfl, fun _ => rfl, fun _ _ => rfl⟩
  refine State.creg_autoIncrement_ne s fun e => ?_
  simp [baseCreg, Fin.ext_iff] at hk
  exact hk e

theorem unchangedBut_flagSideEffect : unchangedBut { f := [16, 17] } s s.flagSideEffect := by
  refine ⟨⟨rfl, rfl, rfl⟩, fun _ _ _ => rfl, fun q hq i => ?_, fun _ _ => rfl, fun _ _ => rfl,
    fun _ => rfl, fun _ => rfl, fun _ _ => rfl⟩
  simp only [List.mem_cons, List.not_mem_nil, or_false, not_or] at hq
  exact State.felem_flagSideEffect s hq.1 hq.2 i

theorem unchangedBut_acc (a : List Accumulator) : unchangedBut { acc := true } s { s with acc := a } := by
  refine ⟨⟨rfl, rfl, rfl⟩, fun _ _ _ => rfl, fun _ _ _ => rfl, fun _ _ => rfl, fun _ _ => rfl,
    (fun h => by cases h), fun _ => rfl, fun _ _ => rfl⟩

theorem unchangedBut_lmem (l : LocalMemory) : unchangedBut { lmem := true } s { s with lmem := l } := by
  refine ⟨⟨rfl, rfl, rfl⟩, fun _ _ _ => rfl, fun _ _ _ => rfl, fun _ _ => rfl, fun _ _ => rfl,
    fun _ => rfl, (fun h => by cases h), fun _ _ => rfl⟩

theorem unchangedBut_mem (m : Memory) : unchangedBut { mem := true } s { s with mem := m } := by
  refine ⟨⟨rfl, rfl, rfl⟩, fun _ _ _ => rfl, fun _ _ _ => rfl, fun _ _ => rfl, fun _ _ => rfl,
    fun _ => rfl, fun _ => rfl, (fun h => by cases h)⟩

end Sys2Proof.Machine
end

