-- ==== Sys2Proof/Laws/Operations.lean ====
section
/-! SUPPORT. For each shared operation, once, everything it can do: what it answers if it answers a
next state, and when it does. -/

namespace Sys2Proof.Machine

variable (s t : State)

/-! ### Checks -/

theorem require_next {ok : Bool} {r : Refusal} {k : Result} :
    require ok r k = .next t ↔ ok = true ∧ k = .next t := by
  cases ok <;> simp [require]

theorem unlessFault_next {f : Option Fault} {k : Result} :
    unlessFault f k = .next t ↔ f = none ∧ k = .next t := by
  cases f <;> simp [unlessFault]

theorem requireFlags_next {fs : List FReg} {k : Result} :
    requireFlags fs k = .next t ↔ (∀ f ∈ fs, reservedFlag f = false) ∧ k = .next t := by
  simp [requireFlags, require_next]

theorem next_inj {a b : State} : (Host.Outcome.next a : Result) = .next b ↔ a = b := by
  constructor
  · intro h; injection h
  · rintro rfl; rfl

theorem finish_next : s.finish = .next t ↔ t = s.flagSideEffect.advance := by
  rw [State.finish, next_inj, eq_comm]

theorem fixedPoint_next {k : Result} :
    s.fixedPoint k = .next t ↔ s.cfg.fixedPoint = true ∧ k = .next t := by
  rw [State.fixedPoint, require_next]

/-! ### Arithmetic -/

theorem elementwise_next (m : MaskSel) (vd : VReg) (a b : Source) (op : ElemOp) :
    s.elementwise m vd a b op = .next t ↔
      t = (s.setV vd fun i =>
        if s.active m i then s.elemResult op a b i else s.velem vd i).flagSideEffect.advance := by
  rw [State.elementwise, finish_next]

theorem compare_next (m : MaskSel) (fd : FReg) (a b : Source) (op : CmpOp) :
    s.compare m fd a b op = .next t ↔
      reservedFlag fd = false ∧
      t = (s.flagSideEffect.setF fd fun i =>
        if s.active m i then
          op s.cfg.w ((s.source a i).setWidth s.cfg.w) ((s.source b i).setWidth s.cfg.w)
        else s.flagSideEffect.felem fd i).advance := by
  rw [State.compare, requireFlags_next, next_inj, eq_comm]
  simp

theorem multiplyAccumulate_next (signed : Bool) (m : MaskSel) (a b : Source) :
    s.multiplyAccumulate signed m a b = .next t ↔
      macAvailable s.cfg = true ∧
      t = State.advance (State.flagSideEffect { s with
        acc := (List.range (accCount s.cfg)).map fun k =>
          { value := wrapAcc s.cfg (s.accValue k + ((s.feeders m k).map (s.macProduct signed a b)).sum)
            written := s.accWritten k || !(s.feeders m k).isEmpty } }) := by
  rw [State.multiplyAccumulate, require_next, finish_next]

/-! ### Main memory -/

theorem avoidingCode_next (n : Nat) (vps : List Nat) (addr : Nat → Int) {k : Result} :
    s.avoidingCode n vps addr k = .next t ↔
      (∀ i ∈ vps, s.hitsCode n (addr i) = false) ∧ k = .next t := by
  simp [State.avoidingCode, require_next]

/-- Where an access reaches the program text the instruction is refused, whatever follows (R74). -/
theorem avoidingCode_refused (n : Nat) {vps : List Nat} {addr : Nat → Int} {i : Nat} (k : Result)
    (hi : i ∈ vps) (h : s.hitsCode n (addr i) = true) :
    s.avoidingCode n vps addr k = .refused .storeToCode := by
  rw [State.avoidingCode, List.any_eq_true.mpr ⟨i, hi, h⟩]; rfl

/-- Where no access reaches the program text the other checks decide (R211). -/
theorem avoidingCode_eq (n : Nat) {vps : List Nat} {addr : Nat → Int} (k : Result)
    (h : ∀ i ∈ vps, s.hitsCode n (addr i) = false) : s.avoidingCode n vps addr k = k := by
  have e : (vps.any fun i => s.hitsCode n (addr i)) = false := by simpa using h
  rw [State.avoidingCode, e]; rfl

theorem load_next (wd : Width) (signed : Bool) (m : MaskSel) (vd : VReg) (vb : VBase)
    (addr : Nat → Int) (after : State → State) :
    s.load wd signed m vd vb addr after = .next t ↔
      widthAvailable s.cfg wd = true ∧
      s.accessFaults vb wd.bytes wd.bytes (s.activeVPs m) addr = none ∧
      t = (after (s.setV vd fun i =>
        if s.active m i then extendElem s.cfg signed wd (s.mem.readLE (addr i).toNat wd.bytes)
        else s.velem vd i)).advance := by
  rw [State.load, require_next, unlessFault_next, next_inj, eq_comm (b := t)]

theorem store_next (wd : Width) (m : MaskSel) (va : VReg) (vb : VBase) (addr : Nat → Int)
    (order : List Nat) (after : State → State) :
    s.store wd m va vb addr order after = .next t ↔
      widthAvailable s.cfg wd = true ∧
      (∀ i ∈ s.activeVPs m, s.hitsCode wd.bytes (addr i) = false) ∧
      s.accessFaults vb wd.bytes wd.bytes (s.activeVPs m) addr = none ∧
      t = (after { s with mem := s.storeElems wd va addr order }).advance := by
  rw [State.store, require_next, avoidingCode_next, unlessFault_next, next_inj, eq_comm (b := t)]

theorem accessFault_none (c : Config) (addr : Int) (n : Nat) :
    accessFault c addr n = none ↔ legalAccess c addr n := by
  unfold accessFault legalAccess
  split_ifs with h1 h2 h3
  · exact ⟨fun h => by simp at h, fun h => absurd h.1 h1⟩
  · exact ⟨fun h => by simp at h, fun h => by have := h.2.1; have := h.2.2.1; omega⟩
  · simp only [List.all_eq_true, List.mem_range] at h3
    simp only [true_iff]
    exact ⟨by simpa using h1, by omega, by omega, h3⟩
  · simp only [List.all_eq_true, List.mem_range] at h3
    exact ⟨fun h => by simp at h, fun h => absurd h.2.2.2 h3⟩

theorem accessFaults_none (vb : VBase) (al n : Nat) (vps : List Nat) (addr : Nat → Int) :
    s.accessFaults vb al n vps addr = none ↔
      (s.base vb : Int) % al = 0 ∧ ∀ i ∈ vps, legalAccess s.cfg (addr i) n := by
  rw [State.accessFaults, Option.or_eq_none_iff, List.findSome?_eq_none_iff]
  refine and_congr ?_ ?_
  · unfold alignFault; split_ifs with h <;> simp [h]
  · simp only [accessFault_none]

theorem mem_activeVPs (m : MaskSel) (i : Nat) :
    i ∈ s.activeVPs m ↔ i < s.cfg.mvl ∧ s.active m i = true := by
  simp [State.activeVPs]

/-- The access checks of a load or store pass exactly when its accesses are legal (R211). -/
theorem legalAccesses_iff (wd : Width) (m : MaskSel) (vb : VBase) (addr : Nat → Int) :
    (widthAvailable s.cfg wd = true ∧
      s.accessFaults vb wd.bytes wd.bytes (s.activeVPs m) addr = none) ↔
      legalAccesses s wd m vb addr := by
  rw [accessFaults_none, legalAccesses]
  simp only [mem_activeVPs, and_imp]

/-! ### Local memory -/

theorem localStore_next (m : MaskSel) (va : VReg) (b : Source) :
    s.localStore m va b = .next t ↔
      s.cfg.lMemN ≠ 0 ∧ (s.cfg.lMemShare = true → s.vlen ≤ s.cfg.nLane) ∧
      (∀ i ∈ s.activeVPs m, s.localAddr va i < localWords s.cfg) ∧
      t = State.advance { s with lmem := s.localStores va b (s.activeVPs m) } := by
  rw [State.localStore, require_next, require_next, unlessFault_next, next_inj, eq_comm (b := t),
    List.findSome?_eq_none_iff]
  simp only [bne_iff_ne, ne_eq, Bool.not_eq_true', Bool.and_eq_false_iff, decide_eq_false_iff_not,
    Nat.not_lt, State.localRangeFault, ite_eq_left_iff, reduceCtorEq, imp_false, Nat.not_le]
  refine and_congr Iff.rfl (and_congr ?_ Iff.rfl)
  cases s.cfg.lMemShare <;> simp

/-! ### Vector processing -/

theorem merge_next (m : MaskSel) (vd : VReg) (a b : Source) :
    s.merge m vd a b = .next t ↔
      t = (s.setV vd fun i =>
        if i < s.vlen then (if s.felem (maskFlag m) i then s.source b i else s.source a i)
        else s.velem vd i).flagSideEffect.advance := by
  rw [State.merge, finish_next]

theorem transfer_next (vd va : VReg) (k : Result) :
    s.transfer vd va k = .next t ↔
      s.cfg.vmanip = true ∧ vd ≠ va ∧ s.elementIndex + s.vlen ≤ s.cfg.mvl ∧ k = .next t := by
  rw [State.transfer, require_next, require_next, require_next]
  simp

/-! ### Flags -/

theorem flagLoop_next (fd : FReg) (named : List FReg) (g : Nat → Bool) :
    s.flagLoop fd named g = .next t ↔
      (∀ f ∈ fd :: named, reservedFlag f = false) ∧
      t = (s.setF fd fun i => if i < s.vlen then g i else s.felem fd i).advance := by
  rw [State.flagLoop, requireFlags_next, next_inj, eq_comm (b := t)]

theorem flagScan_next (fd fa : FReg) (g : Nat → Nat → Bool) :
    s.flagScan fd fa g = .next t ↔
      (reservedFlag fd = false ∧ reservedFlag fa = false) ∧
      t = ((s.setF fd fun i =>
        if i < s.vlen then g (s.firstSet fa) i
        else (s.draw .flagScanTail i).getLsbD 0).useDraws).advance := by
  rw [State.flagScan, requireFlags_next, next_inj, eq_comm (b := t)]
  simp

theorem flagSearch_next (rs : SReg) (fa : FReg) (n : Nat) :
    s.flagSearch rs fa n = .next t ↔
      reservedFlag fa = false ∧ t = (s.setX rs (BitVec.ofNat 32 n)).advance := by
  rw [State.flagSearch, requireFlags_next, next_inj, eq_comm (b := t)]
  simp

/-! ### The machine -/

/-- A step runs the instruction that stands at the `pc` (R44, R125). -/
theorem step_next : step s = .next t ↔
    ∃ w, s.fetch = .word w ∧
      ((∃ i, decodeWord s.cfg w = .instr i ∧ exec i s = .next t) ∨
       (decodeWord s.cfg w = .scalar ∧ t = s.scalarCoreStep)) := by
  unfold step
  cases hf : s.fetch with
  | ended => simp
  | outside => simp
  | word w =>
    cases hd : decodeWord s.cfg w with
    | instr i => simp [hd]
    | scalar => simp [hd, eq_comm]
    | reserved => simp [hd]
    | truncated => simp [hd]

/-- How to show that an instruction completes: what it answers before the `pc` moves on. -/
theorem completes_intro {i : Instr} {u : State} {fr : Frame} {post : State → Prop}
    (h : exec i s = .next u.advance) (hpc : u.pc = s.pc) (hu : unchangedBut fr s u)
    (hp : post u.advance) : completes i s fr post := by
  refine ⟨u.advance, h, by simp [hpc], ?_, hp⟩
  have := unchangedBut_comp hu (unchangedBut_advance u)
  simpa using this

end Sys2Proof.Machine
end

