-- ==== Sys2Proof/Laws/Arithmetic.lean ====
section
/-! SUPPORT. Elements as integers, and one lemma for every element function: what it computes
(40_integer.md, 41_logical.md, 42_fixed_point.md). -/

namespace Sys2Proof.Machine

variable (c : Config) (d : DrawKind → BitVec c.w) (a b : BitVec c.w)

/-! ### Elements in their containers -/

theorem width_le : c.w ≤ 32 := by
  unfold Config.w; cases c.vpuw <;> decide

theorem width_ge : 8 ≤ c.w := by
  unfold Config.w; cases c.vpuw <;> decide

theorem elem_toNat (x : BitVec c.w) : (x.setWidth 32).toNat = x.toNat := by
  rw [BitVec.toNat_setWidth, Nat.mod_eq_of_lt]
  exact Nat.lt_of_lt_of_le x.isLt (Nat.pow_le_pow_right (by omega) (width_le c))

theorem elem_setWidth (x : BitVec c.w) : (x.setWidth 32).setWidth c.w = x := by
  apply BitVec.eq_of_toNat_eq
  rw [BitVec.toNat_setWidth, elem_toNat, Nat.mod_eq_of_lt x.isLt]

theorem signedOf_elem (x : BitVec c.w) : signedOf c (x.setWidth 32) = x.toInt := by
  rw [signedOf, elem_setWidth]

theorem unsignedOf_elem (x : BitVec c.w) : unsignedOf c (x.setWidth 32) = x.toNat := by
  rw [unsignedOf, elem_setWidth]

theorem fits_elem (x : BitVec c.w) : fits c (x.setWidth 32) := by
  rw [fits, elem_toNat]; exact x.isLt

theorem wrapsTo_ofInt (z : Int) : wrapsTo c z ((BitVec.ofInt c.w z).setWidth 32) := by
  rw [wrapsTo, elem_toNat, BitVec.toNat_ofInt, Int.toNat_of_nonneg]
  · simp
  · exact Int.emod_nonneg _ (by positivity)

theorem wrapsTo_ofNat (n : Nat) : wrapsTo c n ((BitVec.ofNat c.w n).setWidth 32) := by
  rw [wrapsTo, elem_toNat, BitVec.toNat_ofNat]
  push_cast
  rfl

theorem toInt_bounds (x : BitVec c.w) : -2 ^ (c.w - 1) ≤ x.toInt ∧ x.toInt < 2 ^ (c.w - 1) :=
  ⟨BitVec.le_toInt x, BitVec.toInt_lt⟩

theorem two_pow_w : (2 : Int) ^ c.w = 2 * 2 ^ (c.w - 1) := by
  have := width_ge c
  rw [← pow_succ']; congr 1; omega

/-- An integer of the signed range is read back from the element that wraps it. -/
theorem signedOf_ofInt {z : Int} (h : -2 ^ (c.w - 1) ≤ z ∧ z < 2 ^ (c.w - 1)) :
    signedOf c ((BitVec.ofInt c.w z).setWidth 32) = z := by
  rw [signedOf_elem, BitVec.toInt_ofInt]
  have := two_pow_w c
  refine Int.bmod_eq_of_le ?_ ?_ <;> push_cast <;> omega

/-! ### Products -/

theorem emod_sq_ediv (p n : Int) (hn : 0 < n) : p % (n * n) / n % n = p / n % n := by
  have h : p % (n * n) = p + n * (-(n * (p / (n * n)))) := by rw [Int.emod_def]; ring
  rw [h, Int.add_mul_ediv_left _ _ (by omega), ← mul_neg, Int.add_mul_emod_self_left]

theorem upperHalf_wrapsTo (p : Int) : wrapsTo c (p / 2 ^ c.w) ((upperHalf c.w p).setWidth 32) := by
  rw [wrapsTo, elem_toNat, upperHalf, BitVec.extractLsb'_toNat, BitVec.toNat_ofInt,
    Nat.shiftRight_eq_div_pow]
  push_cast
  rw [Int.toNat_of_nonneg (Int.emod_nonneg _ (by positivity)), two_mul, pow_add,
    emod_sq_ediv _ _ (by positivity)]

theorem lowerHalf_wrapsTo (p : Int) : wrapsTo c p ((lowerHalf c.w p).setWidth 32) := by
  rw [wrapsTo, elem_toNat, lowerHalf, BitVec.extractLsb'_toNat, BitVec.toNat_ofInt, Nat.shiftRight_zero]
  push_cast
  rw [Int.toNat_of_nonneg (Int.emod_nonneg _ (by positivity)), two_mul, pow_add,
    Int.emod_emod_of_dvd _ (Dvd.intro _ rfl)]

/-! ### Quotients, shifts, rotation -/

theorem divRound_isQuotient (x y : Int) (hy : y ≠ 0) : isQuotient c x y (divRound c.divRound x y) := by
  unfold isQuotient divRound
  cases c.divRound with
  | towardZero =>
    refine ⟨fun _ => rfl, ?_⟩
    simp only
    rw [Int.tdiv_eq_fdiv]
    by_cases h : y ∣ x
    · left; simp [h]
    · have h' : x.fmod y ≠ 0 := fun e => h (Int.dvd_of_fmod_eq_zero e)
      have hs : 0 < y ∧ y.sign = 1 ∨ y < 0 ∧ y.sign = -1 := by
        rcases lt_trichotomy y 0 with hn | hz | hp
        · exact .inr ⟨hn, Int.sign_eq_neg_one_of_neg hn⟩
        · exact absurd hz hy
        · exact .inl ⟨hp, Int.sign_eq_one_of_pos hp⟩
      rw [if_neg h]
      rcases hs with ⟨hp, e⟩ | ⟨hp, e⟩ <;> rw [e] <;> split_ifs <;> simp_all <;> omega
  | unstated =>
    refine ⟨by simp, ?_⟩
    simp only
    split_ifs with h1 h2
    · exact .inl rfl
    · exact .inr ⟨h1, rfl⟩
    · exact .inl rfl

theorem opAbs_spec :
    if a.toInt = -2 ^ (c.w - 1) then fits c ((opAbs c d a b).setWidth 32)
    else ((((opAbs c d a b).setWidth 32 : Elem).toNat : Nat) : Int) = |a.toInt| := by
  unfold opAbs
  split_ifs with h
  · exact fits_elem c _
  · have hb := toInt_bounds c a
    have h2 := two_pow_w c
    rw [elem_toNat, BitVec.toNat_ofNat, Nat.mod_eq_of_lt, Int.natCast_natAbs]
    zify
    rw [abs_lt]
    omega

theorem opAbsdiff_spec :
    (((opAbsdiff c d a b).setWidth 32 : Elem).toNat : Int) =
      if c.absDiffSigned = true then |a.toInt - b.toInt| else |(a.toNat : Int) - b.toNat| := by
  have h2 := two_pow_w c
  have ha := toInt_bounds c a
  have hb := toInt_bounds c b
  have la := a.isLt
  have lb := b.isLt
  zify at la lb
  unfold opAbsdiff
  split_ifs with h
  all_goals
    rw [elem_toNat, BitVec.toNat_ofNat, Nat.mod_eq_of_lt, Int.natCast_natAbs]
    zify
    rw [abs_lt]
    omega

theorem opDiv_spec :
    if b.toInt = 0 ∨ (a.toInt = -2 ^ (c.w - 1) ∧ b.toInt = -1) then
      fits c ((opDiv c d a b).setWidth 32)
    else ∃ q, isQuotient c a.toInt b.toInt q ∧ wrapsTo c q ((opDiv c d a b).setWidth 32) := by
  split_ifs with h
  · exact fits_elem c _
  · rw [not_or] at h
    refine ⟨_, divRound_isQuotient c _ _ h.1, ?_⟩
    rw [opDiv, if_neg h.1, if_neg h.2]
    exact wrapsTo_ofInt c _

theorem opDivu_spec :
    if b.toNat = 0 then fits c ((opDivu c d a b).setWidth 32)
    else ((opDivu c d a b).setWidth 32 : Elem).toNat = a.toNat / b.toNat := by
  unfold opDivu
  split_ifs with h
  · exact fits_elem c _
  · rw [elem_toNat, BitVec.toNat_ofNat, Nat.mod_eq_of_lt]
    exact Nat.lt_of_le_of_lt (Nat.div_le_self _ _) a.isLt

theorem opSra_spec :
    if c.w ≤ a.toNat then fits c ((opSra c d a b).setWidth 32)
    else wrapsTo c (b.toInt / 2 ^ a.toNat) ((opSra c d a b).setWidth 32) := by
  unfold opSra
  split_ifs with h
  · exact fits_elem c _
  · exact wrapsTo_ofInt c _

theorem opSll_spec :
    if c.w ≤ a.toNat then fits c ((opSll c d a b).setWidth 32)
    else wrapsTo c (b.toNat * 2 ^ a.toNat) ((opSll c d a b).setWidth 32) := by
  unfold opSll
  split_ifs with h
  · exact fits_elem c _
  · have := wrapsTo_ofNat c (b.toNat * 2 ^ a.toNat)
    push_cast at this
    exact this

theorem opSrl_spec :
    if c.w ≤ a.toNat then fits c ((opSrl c d a b).setWidth 32)
    else wrapsTo c (b.toNat / 2 ^ a.toNat : Nat) ((opSrl c d a b).setWidth 32) := by
  unfold opSrl
  split_ifs with h
  · exact fits_elem c _
  · exact wrapsTo_ofNat c _

theorem opRot_spec :
    ((opRot c d a b).setWidth 32 : Elem).toNat =
      a.toNat / 2 ^ (b.toNat % c.w) + a.toNat % 2 ^ (b.toNat % c.w) * 2 ^ (c.w - b.toNat % c.w) := by
  have hw := width_ge c
  have hn : b.toNat % c.w < c.w := Nat.mod_lt _ (by omega)
  generalize hN : b.toNat % c.w = n at *
  rw [elem_toNat, opRot, hN, BitVec.toNat_rotateRight, Nat.mod_eq_of_lt hn,
    Nat.shiftRight_eq_div_pow, Nat.shiftLeft_eq]
  have hsplit : 2 ^ c.w = 2 ^ n * 2 ^ (c.w - n) := by rw [← pow_add]; congr 1; omega
  have h1 : a.toNat * 2 ^ (c.w - n) % 2 ^ c.w = a.toNat % 2 ^ n * 2 ^ (c.w - n) := by
    rw [hsplit, Nat.mul_mod_mul_right]
  have h2 : a.toNat / 2 ^ n < 2 ^ (c.w - n) := by
    rw [Nat.div_lt_iff_lt_mul (by positivity), mul_comm, ← hsplit]; exact a.isLt
  rw [h1, Nat.or_comm, mul_comm, Nat.mul_comm _ (a.toNat % 2 ^ n), mul_comm,
    ← Nat.two_pow_add_eq_or_of_lt h2, add_comm]

/-! ### Minima and maxima -/

theorem opMin_spec : fits c ((opMin c d a b).setWidth 32) ∧
    signedOf c ((opMin c d a b).setWidth 32) = min a.toInt b.toInt := by
  refine ⟨fits_elem c _, ?_⟩
  rw [signedOf_elem, opMin]
  split_ifs <;> omega

theorem opMax_spec : fits c ((opMax c d a b).setWidth 32) ∧
    signedOf c ((opMax c d a b).setWidth 32) = max a.toInt b.toInt := by
  refine ⟨fits_elem c _, ?_⟩
  rw [signedOf_elem, opMax]
  split_ifs <;> omega

theorem opMinu_spec : ((opMinu c d a b).setWidth 32 : Elem).toNat = min a.toNat b.toNat := by
  rw [elem_toNat, opMinu]
  split_ifs <;> omega

theorem opMaxu_spec : ((opMaxu c d a b).setWidth 32 : Elem).toNat = max a.toNat b.toNat := by
  rw [elem_toNat, opMaxu]
  split_ifs <;> omega

/-! ### Fixed point -/

theorem satSigned_eq (n : Nat) (z : Int) : satSigned n z = nearestSigned n z := by
  simp only [satSigned, nearestSigned]; omega

theorem satUnsigned_eq (n : Nat) (z : Int) : satUnsigned n z = nearestUnsigned n z := by
  simp only [satUnsigned, nearestUnsigned]; omega

theorem nearestSigned_bounds {n m : Nat} (h : n ≤ m) (z : Int) :
    -2 ^ (m - 1) ≤ nearestSigned n z ∧ nearestSigned n z < 2 ^ (m - 1) := by
  have h1 : (2 : Int) ^ (n - 1) ≤ 2 ^ (m - 1) := by
    exact_mod_cast Nat.pow_le_pow_right (by omega) (by omega)
  have h2 : (0 : Int) < 2 ^ (n - 1) := by positivity
  simp only [nearestSigned]
  omega

/-- A saturated signed value is read back from its element. -/
theorem signedOf_satSigned {n : Nat} (h : n ≤ c.w) (z : Int) :
    signedOf c ((BitVec.ofInt c.w (satSigned n z)).setWidth 32) = nearestSigned n z := by
  rw [satSigned_eq]
  exact signedOf_ofInt c (nearestSigned_bounds h z)

/-- A saturated unsigned value is read back from its element. -/
theorem toNat_satUnsigned {n : Nat} (h : n ≤ c.w) (z : Int) :
    (((BitVec.ofInt c.w (satUnsigned n z)).setWidth 32 : Elem).toNat : Int) = nearestUnsigned n z := by
  have := wrapsTo_ofInt c (satUnsigned n z)
  rw [wrapsTo, satUnsigned_eq] at this
  rw [satUnsigned_eq, this]
  have h1 : (2 : Int) ^ n ≤ 2 ^ c.w := by exact_mod_cast Nat.pow_le_pow_right (by omega) h
  have h2 : (0 : Int) < 2 ^ n := by positivity
  refine Int.emod_eq_of_lt ?_ ?_ <;> simp only [nearestUnsigned] <;> omega

theorem fxRound_isRounded (z : Int) (n : Nat) : isRounded c z n (fxRound c.fxRound z n) := by
  have hp : (0 : Int) < 2 ^ n := by positivity
  have hd := Int.mul_ediv_add_emod z (2 ^ n)
  have hm := Int.emod_nonneg z (ne_of_gt hp)
  have hl := Int.emod_lt_of_pos z hp
  unfold isRounded fxRound
  cases c.fxRound with
  | unstated =>
    simp only [reduceCtorEq, false_implies, and_true]
    split_ifs with h1 h2
    · constructor <;> nlinarith
    · constructor <;> nlinarith [lt_of_le_of_ne hm (Ne.symm h1)]
    · constructor <;> nlinarith [lt_of_le_of_ne hm (Ne.symm h1)]
  | halfUp =>
    simp only [true_implies]
    by_cases h : n = 0
    · subst h
      simp
      omega
    · rw [if_neg h]
      obtain ⟨k, rfl⟩ : ∃ k, n = k + 1 := ⟨n - 1, by omega⟩
      have hk : (0 : Int) < 2 ^ k := by positivity
      have e : (2 : Int) ^ (k + 1) = 2 * 2 ^ k := pow_succ' 2 k
      rw [Nat.add_sub_cancel]
      have h1 := Int.mul_ediv_add_emod (z + 2 ^ k) (2 ^ (k + 1))
      have h2 := Int.emod_nonneg (z + 2 ^ k) (ne_of_gt hp)
      have h3 := Int.emod_lt_of_pos (z + 2 ^ k) hp
      refine ⟨by nlinarith, by nlinarith, ?_⟩
      rw [show 2 * z + 2 ^ (k + 1) = 2 * (z + 2 ^ k) by rw [e]; ring,
        Int.mul_ediv_mul_of_pos _ _ (by omega)]

end Sys2Proof.Machine
end

