-- ==== Sys2Proof/Laws/Encoding.lean ====
section
/-! SUPPORT. Reading the fields of a packed word, and packing the fields that were read, one lemma of
each kind for every form of the formats (R93 to R101). -/

namespace Sys2Proof

/-! ### Values in bit ranges that do not overlap -/

/-- The number that holds the given values in the given bit ranges. -/
def placedSum (l : List (BitField × Nat)) : Nat := (l.map fun p => p.1.place p.2).sum

/-- The bit ranges start at `b`, rise without overlap, and hold their values. -/
def risingFields : Nat → List (BitField × Nat) → Prop
  | _, [] => True
  | b, p :: t => b ≤ p.1.lo ∧ p.2 < 2 ^ p.1.width ∧ risingFields (p.1.lo + p.1.width) t

theorem placedSum_dvd : ∀ {b : Nat} {l : List (BitField × Nat)}, risingFields b l →
    2 ^ b ∣ placedSum l := by
  intro b l
  induction l generalizing b with
  | nil => intro _; exact ⟨0, rfl⟩
  | cons p t ih =>
    rintro ⟨h1, _, h3⟩
    rw [placedSum, List.map_cons, List.sum_cons]
    refine Nat.dvd_add ?_ (Nat.dvd_trans (Nat.pow_dvd_pow 2 (by omega)) (ih h3))
    exact Nat.dvd_trans (Nat.pow_dvd_pow 2 h1) (Nat.dvd_mul_left _ _)

theorem placedSum_lt : ∀ {b n : Nat} {l : List (BitField × Nat)}, risingFields b l →
    (∀ p ∈ l, p.1.lo + p.1.width ≤ n) → placedSum l < 2 ^ n := by
  intro b n l
  induction l generalizing b with
  | nil => intro _ _; exact Nat.two_pow_pos n
  | cons p t ih =>
    rintro ⟨h1, h2, h3⟩ hn
    have hp := hn p (by simp)
    obtain ⟨k, hk⟩ := placedSum_dvd h3
    have hlt := ih h3 (fun q hq => hn q (by simp [hq]))
    rw [hk] at hlt
    rw [placedSum, List.map_cons, List.sum_cons, show (t.map fun q => q.1.place q.2).sum = placedSum t
      from rfl, hk, BitField.place]
    have e : 2 ^ n = 2 ^ (p.1.lo + p.1.width) * 2 ^ (n - (p.1.lo + p.1.width)) := by
      rw [← pow_add]; congr 1; omega
    rw [e] at hlt ⊢
    have hk' : k < 2 ^ (n - (p.1.lo + p.1.width)) := Nat.lt_of_mul_lt_mul_left hlt
    have h4 : p.2 * 2 ^ p.1.lo < 2 ^ (p.1.lo + p.1.width) := by
      rw [pow_add, mul_comm (2 ^ p.1.lo)]
      exact Nat.mul_lt_mul_of_pos_right h2 (Nat.two_pow_pos _)
    calc p.2 * 2 ^ p.1.lo + 2 ^ (p.1.lo + p.1.width) * k
        < 2 ^ (p.1.lo + p.1.width) + 2 ^ (p.1.lo + p.1.width) * k := Nat.add_lt_add_right h4 _
      _ = 2 ^ (p.1.lo + p.1.width) * (k + 1) := by ring
      _ ≤ _ := Nat.mul_le_mul_left _ hk'

theorem lo_of_mem : ∀ {b : Nat} {l : List (BitField × Nat)}, risingFields b l →
    ∀ p ∈ l, b ≤ p.1.lo := by
  intro b l
  induction l generalizing b with
  | nil => intro _ p hp; cases hp
  | cons q t ih =>
    rintro ⟨h1, _, h3⟩ p hp
    rcases List.mem_cons.mp hp with rfl | hp
    · exact h1
    · have := ih h3 p hp; omega

/-- Each bit range gives back the value placed in it. -/
theorem get_placedSum : ∀ {b : Nat} {l : List (BitField × Nat)}, risingFields b l →
    ∀ p ∈ l, p.1.get (placedSum l) = p.2 := by
  intro b l
  induction l generalizing b with
  | nil => intro _ p hp; cases hp
  | cons q t ih =>
    rintro ⟨_, h2, h3⟩ p hp
    obtain ⟨k, hk⟩ := placedSum_dvd h3
    have e : placedSum (q :: t) = q.2 * 2 ^ q.1.lo + placedSum t := rfl
    rcases List.mem_cons.mp hp with rfl | hp
    · rw [e, hk, BitField.get, pow_add, mul_assoc, mul_comm p.2, ← Nat.mul_add,
        Nat.mul_div_cancel_left _ (Nat.two_pow_pos _), Nat.add_mul_mod_self_left, Nat.mod_eq_of_lt h2]
    · have hlo := lo_of_mem h3 p hp
      have := ih h3 p hp
      rw [← this, BitField.get, BitField.get, e, hk]
      congr 1
      have hd : 2 ^ p.1.lo = 2 ^ (q.1.lo + q.1.width) * 2 ^ (p.1.lo - (q.1.lo + q.1.width)) := by
        rw [← pow_add]; congr 1; omega
      have h4 : q.2 * 2 ^ q.1.lo < 2 ^ (q.1.lo + q.1.width) := by
        rw [pow_add, mul_comm (2 ^ q.1.lo)]
        exact Nat.mul_lt_mul_of_pos_right h2 (Nat.two_pow_pos _)
      rw [hd, ← Nat.div_div_eq_div_mul, ← Nat.div_div_eq_div_mul,
        Nat.add_mul_div_left _ _ (Nat.two_pow_pos _), Nat.div_eq_of_lt h4, Nat.zero_add,
        Nat.mul_div_cancel_left _ (Nat.two_pow_pos _)]

/-- Two bit ranges of which neither is empty do not overlap. -/
abbrev apart (f g : BitField) : Prop :=
  0 < f.width ∧ 0 < g.width ∧ (f.lo + f.width ≤ g.lo ∨ g.lo + g.width ≤ f.lo)

theorem risingFields_cons_of_sorted : ∀ {b : Nat} {l : List (BitField × Nat)},
    (l.Pairwise fun p q => p.1.lo ≤ q.1.lo) → (l.Pairwise fun p q => apart p.1 q.1) →
    (∀ p ∈ l, p.2 < 2 ^ p.1.width) → (∀ p ∈ l, b ≤ p.1.lo) → risingFields b l := by
  intro b l
  induction l generalizing b with
  | nil => intro _ _ _ _; trivial
  | cons p t ih =>
    intro hs ha hv hb
    have hs' := List.pairwise_cons.mp hs
    have ha' := List.pairwise_cons.mp ha
    refine ⟨hb p (by simp), hv p (by simp), ih hs'.2 ha'.2 (fun q hq => hv q (by simp [hq])) ?_⟩
    intro q hq
    have h1 := hs'.1 q hq
    have h2 := ha'.1 q hq
    simp only [apart] at h2
    omega

/-- Bit ranges that do not overlap can be put in rising order. -/
theorem exists_risingFields {l : List (BitField × Nat)} (ha : l.Pairwise fun p q => apart p.1 q.1)
    (hv : ∀ p ∈ l, p.2 < 2 ^ p.1.width) : ∃ k, k.Perm l ∧ risingFields 0 k := by
  let le : BitField × Nat → BitField × Nat → Bool := fun p q => p.1.lo ≤ q.1.lo
  have hp : (l.mergeSort le).Perm l := List.mergeSort_perm l le
  refine ⟨l.mergeSort le, hp, risingFields_cons_of_sorted ?_ ?_ ?_ ?_⟩
  · have := List.pairwise_mergeSort (le := le) (by simp only [le, decide_eq_true_eq]; omega)
      (by simp only [le, Bool.or_eq_true, decide_eq_true_eq]; omega) l
    exact this.imp (by simp [le])
  · refine hp.symm.pairwise ha ?_
    rintro p q ⟨h1, h2, h3⟩
    exact ⟨h2, h1, h3.symm⟩
  · intro p hq; exact hv p (hp.mem_iff.mp hq)
  · intro p _; exact Nat.zero_le _

/-- The three codes and the operands of a packed word, each with its bit range. -/
def packedFields (l : FieldLayout) (op opx func : Nat) (ops : List (BitField × Nat)) :
    List (BitField × Nat) :=
  (l.op, op) :: (l.opx, opx) :: (l.func, func) :: ops

/-- A packed word gives back what was packed, and has no other bit set (R100). -/
theorem packWord_get {l : FieldLayout} {op opx func : Nat} {ops : List (BitField × Nat)}
    (ha : (packedFields l op opx func ops).Pairwise fun p q => apart p.1 q.1)
    (hn : ∀ p ∈ packedFields l op opx func ops, p.1.lo + p.1.width ≤ 32)
    (hv : ∀ p ∈ packedFields l op opx func ops, p.2 < 2 ^ p.1.width) :
    (∀ p ∈ packedFields l op opx func ops, p.1.get (packWord l op opx func ops).toNat = p.2) ∧
    onlyFields l (ops.map Prod.fst) (packWord l op opx func ops).toNat = true := by
  obtain ⟨k, hk, hr⟩ := exists_risingFields ha hv
  have hsum : placedSum k = placedSum (packedFields l op opx func ops) := (hk.map _).sum_eq
  have hlt := placedSum_lt hr fun p hp => hn p (hk.mem_iff.mp hp)
  have hw : (packWord l op opx func ops).toNat = placedSum k := by
    rw [hsum] at hlt ⊢
    rw [packWord, BitVec.toNat_ofNat, Nat.mod_eq_of_lt]
    · simp only [placedSum, packedFields, List.map_cons, List.sum_cons]; omega
    · simp only [placedSum, packedFields, List.map_cons, List.sum_cons] at hlt ⊢; omega
  have hget : ∀ p ∈ packedFields l op opx func ops,
      p.1.get (packWord l op opx func ops).toNat = p.2 := by
    intro p hp; rw [hw]; exact get_placedSum hr p (hk.mem_iff.mpr hp)
  refine ⟨hget, ?_⟩
  rw [onlyFields, beq_iff_eq, sumOfFields]
  have he : ((opcodeFields l ++ ops.map Prod.fst).map fun f =>
      f.place (f.get (packWord l op opx func ops).toNat)) =
      (packedFields l op opx func ops).map fun p => p.1.place p.2 := by
    rw [show opcodeFields l ++ ops.map Prod.fst = (packedFields l op opx func ops).map Prod.fst from rfl,
      List.map_map]
    refine List.map_congr_left fun p hp => ?_
    rw [Function.comp, hget p hp]
  rw [he, hw, hsum]
  rfl

/-! ### Operands -/

theorem maskBit_lt (m : MaskSel) : maskBit m < 2 := by cases m <;> decide

theorem get_lt (f : BitField) (w : Nat) : f.get w < 2 ^ f.width :=
  Nat.mod_lt _ (Nat.two_pow_pos _)

theorem vregAt_eq {f : BitField} {w : Nat} {r : VReg} (h : f.get w = r.val) : vregAt f w = r := by
  apply Fin.ext; simp [vregAt, Fin.ofNat, h, Nat.mod_eq_of_lt r.isLt]

theorem fregAt_eq {f : BitField} {w : Nat} {r : FReg} (h : (flagField f).get w = r.val) :
    fregAt f w = r := by
  apply Fin.ext; simp [fregAt, Fin.ofNat, h, Nat.mod_eq_of_lt r.isLt]

theorem sregAt_eq {f : BitField} {w : Nat} {r : SReg} (h : f.get w = r.val) : sregAt f w = r := by
  apply Fin.ext; simp [sregAt, Fin.ofNat, h, Nat.mod_eq_of_lt r.isLt]

theorem vbaseAt_eq {l : FieldLayout} {w : Nat} {r : VBase} (h : l.vbase.get w = r.val) :
    vbaseAt l w = r := by
  apply Fin.ext; simp [vbaseAt, Fin.ofNat, h, Nat.mod_eq_of_lt r.isLt]

theorem vincAt_eq {l : FieldLayout} {w : Nat} {r : VInc} (h : l.vinc.get w = r.val) :
    vincAt l w = r := by
  apply Fin.ext; simp [vincAt, Fin.ofNat, h, Nat.mod_eq_of_lt r.isLt]

theorem vstrideAt_eq {l : FieldLayout} {w : Nat} {r : VStride} (h : l.vstride.get w = r.val) :
    vstrideAt l w = r := by
  apply Fin.ext; simp [vstrideAt, Fin.ofNat, h, Nat.mod_eq_of_lt r.isLt]

theorem maskAt_eq {l : FieldLayout} {w : Nat} {m : MaskSel} (h : l.mask.get w = maskBit m) :
    maskAt l w = m := by
  rw [maskAt, h]; cases m <;> rfl

theorem vregAt_val {f : BitField} (w : Nat) (h : f.width = 6) : (vregAt f w).val = f.get w :=
  Nat.mod_eq_of_lt (by have := get_lt f w; rwa [h] at this)

theorem fregAt_val (f : BitField) (w : Nat) : (fregAt f w).val = (flagField f).get w :=
  Nat.mod_eq_of_lt (get_lt (flagField f) w)

theorem sregAt_val {f : BitField} (w : Nat) (h : f.width = 5) : (sregAt f w).val = f.get w :=
  Nat.mod_eq_of_lt (by have := get_lt f w; rwa [h] at this)

theorem vbaseAt_val {l : FieldLayout} (w : Nat) (h : l.vbase.width = 4) :
    (vbaseAt l w).val = l.vbase.get w :=
  Nat.mod_eq_of_lt (by have := get_lt l.vbase w; rwa [h] at this)

theorem vincAt_val {l : FieldLayout} (w : Nat) (h : l.vinc.width = 3) :
    (vincAt l w).val = l.vinc.get w :=
  Nat.mod_eq_of_lt (by have := get_lt l.vinc w; rwa [h] at this)

theorem vstrideAt_val {l : FieldLayout} (w : Nat) (h : l.vstride.width = 3) :
    (vstrideAt l w).val = l.vstride.get w :=
  Nat.mod_eq_of_lt (by have := get_lt l.vstride w; rwa [h] at this)

theorem maskBit_maskAt {l : FieldLayout} (w : Nat) (h : l.mask.width = 1) :
    maskBit (maskAt l w) = l.mask.get w := by
  have h2 := get_lt l.mask w
  rw [h] at h2
  rw [maskAt]
  split_ifs with h0
  · rw [h0]; rfl
  · have : l.mask.get w = 1 := by omega
    rw [this]; rfl

/-- A word that a form accepts is packed from its codes and its operands. -/
theorem eq_packWord {l : FieldLayout} {w : Word} {ops : List (BitField × Nat)}
    (h : onlyFields l (ops.map Prod.fst) w.toNat = true) (hv : ∀ p ∈ ops, p.2 = p.1.get w.toNat) :
    w = packWord l (l.op.get w.toNat) (l.opx.get w.toNat) (l.func.get w.toNat) ops := by
  rw [onlyFields, beq_iff_eq, sumOfFields, List.map_append, List.sum_append, List.map_map] at h
  have he : ops.map ((fun f => f.place (f.get w.toNat)) ∘ Prod.fst) = ops.map fun p => p.1.place p.2 :=
    List.map_congr_left fun p hp => by rw [Function.comp, hv p hp]
  rw [he] at h
  simp only [opcodeFields, List.map_cons, List.map_nil, List.sum_cons, List.sum_nil] at h
  apply BitVec.eq_of_toNat_eq
  rw [packWord, BitVec.toNat_ofNat, Nat.mod_eq_of_lt]
  · omega
  · have := w.isLt; omega


/-! ### VRvvv -/

theorem packVRvvv_eq (l : FieldLayout) (op opx func : Nat) (m : MaskSel) (vd : VReg) (va : VReg) (vb : VReg) :
    packVRvvv l op opx func m vd va vb = packWord l op opx func
      [(l.mask, maskBit m), (l.vd, vd.val), (l.va, va.val), (l.vb, vb.val)] := rfl

theorem packVRvvv_get {op opx func : Nat} (h1 : op < 64) (h2 : opx < 2) (h3 : func < 64)
    (m : MaskSel) (vd : VReg) (va : VReg) (vb : VReg) :
    (∀ p ∈ packedFields FieldLayout.r93 op opx func
      [(FieldLayout.r93.mask, maskBit m), (FieldLayout.r93.vd, vd.val), (FieldLayout.r93.va, va.val), (FieldLayout.r93.vb, vb.val)],
      p.1.get (packVRvvv FieldLayout.r93 op opx func m vd va vb).toNat = p.2) ∧
    onlyFields FieldLayout.r93
      [FieldLayout.r93.mask, FieldLayout.r93.vd, FieldLayout.r93.va, FieldLayout.r93.vb]
      (packVRvvv FieldLayout.r93 op opx func m vd va vb).toNat = true :=
  packWord_get (l := FieldLayout.r93) (ops := [(FieldLayout.r93.mask, maskBit m), (FieldLayout.r93.vd, vd.val), (FieldLayout.r93.va, va.val), (FieldLayout.r93.vb, vb.val)])
    (by simp [packedFields, apart, FieldLayout.r93])
    (by simp [packedFields, FieldLayout.r93])
    (by simp [packedFields, FieldLayout.r93, h1, h2, h3, maskBit_lt m, vd.isLt, va.isLt, vb.isLt])

theorem packVRvvv_codes {op opx func : Nat} (h1 : op < 64) (h2 : opx < 2) (h3 : func < 64)
    (m : MaskSel) (vd : VReg) (va : VReg) (vb : VReg) :
    FieldLayout.r93.op.get (packVRvvv FieldLayout.r93 op opx func m vd va vb).toNat = op ∧
    FieldLayout.r93.opx.get (packVRvvv FieldLayout.r93 op opx func m vd va vb).toNat = opx ∧
    FieldLayout.r93.func.get (packVRvvv FieldLayout.r93 op opx func m vd va vb).toNat = func := by
  have hg := (packVRvvv_get h1 h2 h3 m vd va vb).1
  exact ⟨hg (FieldLayout.r93.op, op) (by simp [packedFields]),
    hg (FieldLayout.r93.opx, opx) (by simp [packedFields]),
    hg (FieldLayout.r93.func, func) (by simp [packedFields])⟩

theorem readVRvvv_pack {op opx func : Nat} (h1 : op < 64) (h2 : opx < 2) (h3 : func < 64)
    (m : MaskSel) (vd : VReg) (va : VReg) (vb : VReg) (mk : MaskSel → VReg → VReg → VReg → Instr) :
    readVRvvv FieldLayout.r93 (packVRvvv FieldLayout.r93 op opx func m vd va vb).toNat mk =
      .instr (mk m vd va vb) := by
  have hg := packVRvvv_get h1 h2 h3 m vd va vb
  rw [readVRvvv,
    maskAt_eq (hg.1 (FieldLayout.r93.mask, maskBit m) (by simp [packedFields])),
    vregAt_eq (hg.1 (FieldLayout.r93.vd, vd.val) (by simp [packedFields])),
    vregAt_eq (hg.1 (FieldLayout.r93.va, va.val) (by simp [packedFields])),
    vregAt_eq (hg.1 (FieldLayout.r93.vb, vb.val) (by simp [packedFields])),
    accept]
  exact if_pos hg.2

theorem readVRvvv_eq {w : Word} {mk : MaskSel → VReg → VReg → VReg → Instr} {i : Instr}
    (h : readVRvvv FieldLayout.r93 w.toNat mk = .instr i) :
    ∃ m vd va vb, i = mk m vd va vb ∧ w = packVRvvv FieldLayout.r93 (FieldLayout.r93.op.get w.toNat)
      (FieldLayout.r93.opx.get w.toNat) (FieldLayout.r93.func.get w.toNat) m vd va vb := by
  unfold readVRvvv accept at h
  split_ifs at h with hf
  injection h with h
  have e := eq_packWord (l := FieldLayout.r93) (w := w) (ops :=
    [(FieldLayout.r93.mask, maskBit (maskAt FieldLayout.r93 w.toNat)),
     (FieldLayout.r93.vd, (vregAt FieldLayout.r93.vd w.toNat).val),
     (FieldLayout.r93.va, (vregAt FieldLayout.r93.va w.toNat).val),
     (FieldLayout.r93.vb, (vregAt FieldLayout.r93.vb w.toNat).val)]) hf (by
      intro p hp
      simp only [List.mem_cons, List.not_mem_nil, or_false] at hp
      rcases hp with rfl | rfl | rfl | rfl
      · exact maskBit_maskAt _ rfl
      · exact vregAt_val _ rfl
      · exact vregAt_val _ rfl
      · exact vregAt_val _ rfl)
  rw [← packVRvvv_eq] at e
  exact ⟨_, _, _, _, h.symm, e⟩


/-! ### VRfvv -/

theorem packVRfvv_eq (l : FieldLayout) (op opx func : Nat) (m : MaskSel) (fd : FReg) (va : VReg) (vb : VReg) :
    packVRfvv l op opx func m fd va vb = packWord l op opx func
      [(l.mask, maskBit m), (flagField l.vd, fd.val), (l.va, va.val), (l.vb, vb.val)] := rfl

theorem packVRfvv_get {op opx func : Nat} (h1 : op < 64) (h2 : opx < 2) (h3 : func < 64)
    (m : MaskSel) (fd : FReg) (va : VReg) (vb : VReg) :
    (∀ p ∈ packedFields FieldLayout.r93 op opx func
      [(FieldLayout.r93.mask, maskBit m), (flagField FieldLayout.r93.vd, fd.val), (FieldLayout.r93.va, va.val), (FieldLayout.r93.vb, vb.val)],
      p.1.get (packVRfvv FieldLayout.r93 op opx func m fd va vb).toNat = p.2) ∧
    onlyFields FieldLayout.r93
      [FieldLayout.r93.mask, flagField FieldLayout.r93.vd, FieldLayout.r93.va, FieldLayout.r93.vb]
      (packVRfvv FieldLayout.r93 op opx func m fd va vb).toNat = true :=
  packWord_get (l := FieldLayout.r93) (ops := [(FieldLayout.r93.mask, maskBit m), (flagField FieldLayout.r93.vd, fd.val), (FieldLayout.r93.va, va.val), (FieldLayout.r93.vb, vb.val)])
    (by simp [packedFields, apart, FieldLayout.r93, flagField])
    (by simp [packedFields, FieldLayout.r93, flagField])
    (by simp [packedFields, FieldLayout.r93, flagField, h1, h2, h3, maskBit_lt m, fd.isLt, va.isLt, vb.isLt])

theorem packVRfvv_codes {op opx func : Nat} (h1 : op < 64) (h2 : opx < 2) (h3 : func < 64)
    (m : MaskSel) (fd : FReg) (va : VReg) (vb : VReg) :
    FieldLayout.r93.op.get (packVRfvv FieldLayout.r93 op opx func m fd va vb).toNat = op ∧
    FieldLayout.r93.opx.get (packVRfvv FieldLayout.r93 op opx func m fd va vb).toNat = opx ∧
    FieldLayout.r93.func.get (packVRfvv FieldLayout.r93 op opx func m fd va vb).toNat = func := by
  have hg := (packVRfvv_get h1 h2 h3 m fd va vb).1
  exact ⟨hg (FieldLayout.r93.op, op) (by simp [packedFields]),
    hg (FieldLayout.r93.opx, opx) (by simp [packedFields]),
    hg (FieldLayout.r93.func, func) (by simp [packedFields])⟩

theorem readVRfvv_pack {op opx func : Nat} (h1 : op < 64) (h2 : opx < 2) (h3 : func < 64)
    (m : MaskSel) (fd : FReg) (va : VReg) (vb : VReg) (mk : MaskSel → FReg → VReg → VReg → Instr) :
    readVRfvv FieldLayout.r93 (packVRfvv FieldLayout.r93 op opx func m fd va vb).toNat mk =
      .instr (mk m fd va vb) := by
  have hg := packVRfvv_get h1 h2 h3 m fd va vb
  rw [readVRfvv,
    maskAt_eq (hg.1 (FieldLayout.r93.mask, maskBit m) (by simp [packedFields])),
    fregAt_eq (hg.1 (flagField FieldLayout.r93.vd, fd.val) (by simp [packedFields])),
    vregAt_eq (hg.1 (FieldLayout.r93.va, va.val) (by simp [packedFields])),
    vregAt_eq (hg.1 (FieldLayout.r93.vb, vb.val) (by simp [packedFields])),
    accept]
  exact if_pos hg.2

theorem readVRfvv_eq {w : Word} {mk : MaskSel → FReg → VReg → VReg → Instr} {i : Instr}
    (h : readVRfvv FieldLayout.r93 w.toNat mk = .instr i) :
    ∃ m fd va vb, i = mk m fd va vb ∧ w = packVRfvv FieldLayout.r93 (FieldLayout.r93.op.get w.toNat)
      (FieldLayout.r93.opx.get w.toNat) (FieldLayout.r93.func.get w.toNat) m fd va vb := by
  unfold readVRfvv accept at h
  split_ifs at h with hf
  injection h with h
  have e := eq_packWord (l := FieldLayout.r93) (w := w) (ops :=
    [(FieldLayout.r93.mask, maskBit (maskAt FieldLayout.r93 w.toNat)),
     (flagField FieldLayout.r93.vd, (fregAt FieldLayout.r93.vd w.toNat).val),
     (FieldLayout.r93.va, (vregAt FieldLayout.r93.va w.toNat).val),
     (FieldLayout.r93.vb, (vregAt FieldLayout.r93.vb w.toNat).val)]) hf (by
      intro p hp
      simp only [List.mem_cons, List.not_mem_nil, or_false] at hp
      rcases hp with rfl | rfl | rfl | rfl
      · exact maskBit_maskAt _ rfl
      · exact fregAt_val _ _
      · exact vregAt_val _ rfl
      · exact vregAt_val _ rfl)
  rw [← packVRfvv_eq] at e
  exact ⟨_, _, _, _, h.symm, e⟩


/-! ### VRab -/

theorem packVRab_eq (l : FieldLayout) (op opx func : Nat) (m : MaskSel) (va : VReg) (vb : VReg) :
    packVRab l op opx func m va vb = packWord l op opx func
      [(l.mask, maskBit m), (l.va, va.val), (l.vb, vb.val)] := rfl

theorem packVRab_get {op opx func : Nat} (h1 : op < 64) (h2 : opx < 2) (h3 : func < 64)
    (m : MaskSel) (va : VReg) (vb : VReg) :
    (∀ p ∈ packedFields FieldLayout.r93 op opx func
      [(FieldLayout.r93.mask, maskBit m), (FieldLayout.r93.va, va.val), (FieldLayout.r93.vb, vb.val)],
      p.1.get (packVRab FieldLayout.r93 op opx func m va vb).toNat = p.2) ∧
    onlyFields FieldLayout.r93
      [FieldLayout.r93.mask, FieldLayout.r93.va, FieldLayout.r93.vb]
      (packVRab FieldLayout.r93 op opx func m va vb).toNat = true :=
  packWord_get (l := FieldLayout.r93) (ops := [(FieldLayout.r93.mask, maskBit m), (FieldLayout.r93.va, va.val), (FieldLayout.r93.vb, vb.val)])
    (by simp [packedFields, apart, FieldLayout.r93])
    (by simp [packedFields, FieldLayout.r93])
    (by simp [packedFields, FieldLayout.r93, h1, h2, h3, maskBit_lt m, va.isLt, vb.isLt])

theorem packVRab_codes {op opx func : Nat} (h1 : op < 64) (h2 : opx < 2) (h3 : func < 64)
    (m : MaskSel) (va : VReg) (vb : VReg) :
    FieldLayout.r93.op.get (packVRab FieldLayout.r93 op opx func m va vb).toNat = op ∧
    FieldLayout.r93.opx.get (packVRab FieldLayout.r93 op opx func m va vb).toNat = opx ∧
    FieldLayout.r93.func.get (packVRab FieldLayout.r93 op opx func m va vb).toNat = func := by
  have hg := (packVRab_get h1 h2 h3 m va vb).1
  exact ⟨hg (FieldLayout.r93.op, op) (by simp [packedFields]),
    hg (FieldLayout.r93.opx, opx) (by simp [packedFields]),
    hg (FieldLayout.r93.func, func) (by simp [packedFields])⟩

theorem readVRab_pack {op opx func : Nat} (h1 : op < 64) (h2 : opx < 2) (h3 : func < 64)
    (m : MaskSel) (va : VReg) (vb : VReg) (mk : MaskSel → VReg → VReg → Instr) :
    readVRab FieldLayout.r93 (packVRab FieldLayout.r93 op opx func m va vb).toNat mk =
      .instr (mk m va vb) := by
  have hg := packVRab_get h1 h2 h3 m va vb
  rw [readVRab,
    maskAt_eq (hg.1 (FieldLayout.r93.mask, maskBit m) (by simp [packedFields])),
    vregAt_eq (hg.1 (FieldLayout.r93.va, va.val) (by simp [packedFields])),
    vregAt_eq (hg.1 (FieldLayout.r93.vb, vb.val) (by simp [packedFields])),
    accept]
  exact if_pos hg.2

theorem readVRab_eq {w : Word} {mk : MaskSel → VReg → VReg → Instr} {i : Instr}
    (h : readVRab FieldLayout.r93 w.toNat mk = .instr i) :
    ∃ m va vb, i = mk m va vb ∧ w = packVRab FieldLayout.r93 (FieldLayout.r93.op.get w.toNat)
      (FieldLayout.r93.opx.get w.toNat) (FieldLayout.r93.func.get w.toNat) m va vb := by
  unfold readVRab accept at h
  split_ifs at h with hf
  injection h with h
  have e := eq_packWord (l := FieldLayout.r93) (w := w) (ops :=
    [(FieldLayout.r93.mask, maskBit (maskAt FieldLayout.r93 w.toNat)),
     (FieldLayout.r93.va, (vregAt FieldLayout.r93.va w.toNat).val),
     (FieldLayout.r93.vb, (vregAt FieldLayout.r93.vb w.toNat).val)]) hf (by
      intro p hp
      simp only [List.mem_cons, List.not_mem_nil, or_false] at hp
      rcases hp with rfl | rfl | rfl
      · exact maskBit_maskAt _ rfl
      · exact vregAt_val _ rfl
      · exact vregAt_val _ rfl)
  rw [← packVRab_eq] at e
  exact ⟨_, _, _, h.symm, e⟩


/-! ### VRmda -/

theorem packVRmda_eq (l : FieldLayout) (op opx func : Nat) (m : MaskSel) (vd : VReg) (va : VReg) :
    packVRmda l op opx func m vd va = packWord l op opx func
      [(l.mask, maskBit m), (l.vd, vd.val), (l.va, va.val)] := rfl

theorem packVRmda_get {op opx func : Nat} (h1 : op < 64) (h2 : opx < 2) (h3 : func < 64)
    (m : MaskSel) (vd : VReg) (va : VReg) :
    (∀ p ∈ packedFields FieldLayout.r93 op opx func
      [(FieldLayout.r93.mask, maskBit m), (FieldLayout.r93.vd, vd.val), (FieldLayout.r93.va, va.val)],
      p.1.get (packVRmda FieldLayout.r93 op opx func m vd va).toNat = p.2) ∧
    onlyFields FieldLayout.r93
      [FieldLayout.r93.mask, FieldLayout.r93.vd, FieldLayout.r93.va]
      (packVRmda FieldLayout.r93 op opx func m vd va).toNat = true :=
  packWord_get (l := FieldLayout.r93) (ops := [(FieldLayout.r93.mask, maskBit m), (FieldLayout.r93.vd, vd.val), (FieldLayout.r93.va, va.val)])
    (by simp [packedFields, apart, FieldLayout.r93])
    (by simp [packedFields, FieldLayout.r93])
    (by simp [packedFields, FieldLayout.r93, h1, h2, h3, maskBit_lt m, vd.isLt, va.isLt])

theorem packVRmda_codes {op opx func : Nat} (h1 : op < 64) (h2 : opx < 2) (h3 : func < 64)
    (m : MaskSel) (vd : VReg) (va : VReg) :
    FieldLayout.r93.op.get (packVRmda FieldLayout.r93 op opx func m vd va).toNat = op ∧
    FieldLayout.r93.opx.get (packVRmda FieldLayout.r93 op opx func m vd va).toNat = opx ∧
    FieldLayout.r93.func.get (packVRmda FieldLayout.r93 op opx func m vd va).toNat = func := by
  have hg := (packVRmda_get h1 h2 h3 m vd va).1
  exact ⟨hg (FieldLayout.r93.op, op) (by simp [packedFields]),
    hg (FieldLayout.r93.opx, opx) (by simp [packedFields]),
    hg (FieldLayout.r93.func, func) (by simp [packedFields])⟩

theorem readVRmda_pack {op opx func : Nat} (h1 : op < 64) (h2 : opx < 2) (h3 : func < 64)
    (m : MaskSel) (vd : VReg) (va : VReg) (mk : MaskSel → VReg → VReg → Instr) :
    readVRmda FieldLayout.r93 (packVRmda FieldLayout.r93 op opx func m vd va).toNat mk =
      .instr (mk m vd va) := by
  have hg := packVRmda_get h1 h2 h3 m vd va
  rw [readVRmda,
    maskAt_eq (hg.1 (FieldLayout.r93.mask, maskBit m) (by simp [packedFields])),
    vregAt_eq (hg.1 (FieldLayout.r93.vd, vd.val) (by simp [packedFields])),
    vregAt_eq (hg.1 (FieldLayout.r93.va, va.val) (by simp [packedFields])),
    accept]
  exact if_pos hg.2

theorem readVRmda_eq {w : Word} {mk : MaskSel → VReg → VReg → Instr} {i : Instr}
    (h : readVRmda FieldLayout.r93 w.toNat mk = .instr i) :
    ∃ m vd va, i = mk m vd va ∧ w = packVRmda FieldLayout.r93 (FieldLayout.r93.op.get w.toNat)
      (FieldLayout.r93.opx.get w.toNat) (FieldLayout.r93.func.get w.toNat) m vd va := by
  unfold readVRmda accept at h
  split_ifs at h with hf
  injection h with h
  have e := eq_packWord (l := FieldLayout.r93) (w := w) (ops :=
    [(FieldLayout.r93.mask, maskBit (maskAt FieldLayout.r93 w.toNat)),
     (FieldLayout.r93.vd, (vregAt FieldLayout.r93.vd w.toNat).val),
     (FieldLayout.r93.va, (vregAt FieldLayout.r93.va w.toNat).val)]) hf (by
      intro p hp
      simp only [List.mem_cons, List.not_mem_nil, or_false] at hp
      rcases hp with rfl | rfl | rfl
      · exact maskBit_maskAt _ rfl
      · exact vregAt_val _ rfl
      · exact vregAt_val _ rfl)
  rw [← packVRmda_eq] at e
  exact ⟨_, _, _, h.symm, e⟩


/-! ### VRda -/

theorem packVRda_eq (l : FieldLayout) (op opx func : Nat) (vd : VReg) (va : VReg) :
    packVRda l op opx func vd va = packWord l op opx func
      [(l.vd, vd.val), (l.va, va.val)] := rfl

theorem packVRda_get {op opx func : Nat} (h1 : op < 64) (h2 : opx < 2) (h3 : func < 64)
    (vd : VReg) (va : VReg) :
    (∀ p ∈ packedFields FieldLayout.r93 op opx func
      [(FieldLayout.r93.vd, vd.val), (FieldLayout.r93.va, va.val)],
      p.1.get (packVRda FieldLayout.r93 op opx func vd va).toNat = p.2) ∧
    onlyFields FieldLayout.r93
      [FieldLayout.r93.vd, FieldLayout.r93.va]
      (packVRda FieldLayout.r93 op opx func vd va).toNat = true :=
  packWord_get (l := FieldLayout.r93) (ops := [(FieldLayout.r93.vd, vd.val), (FieldLayout.r93.va, va.val)])
    (by simp [packedFields, apart, FieldLayout.r93])
    (by simp [packedFields, FieldLayout.r93])
    (by simp [packedFields, FieldLayout.r93, h1, h2, h3, vd.isLt, va.isLt])

theorem packVRda_codes {op opx func : Nat} (h1 : op < 64) (h2 : opx < 2) (h3 : func < 64)
    (vd : VReg) (va : VReg) :
    FieldLayout.r93.op.get (packVRda FieldLayout.r93 op opx func vd va).toNat = op ∧
    FieldLayout.r93.opx.get (packVRda FieldLayout.r93 op opx func vd va).toNat = opx ∧
    FieldLayout.r93.func.get (packVRda FieldLayout.r93 op opx func vd va).toNat = func := by
  have hg := (packVRda_get h1 h2 h3 vd va).1
  exact ⟨hg (FieldLayout.r93.op, op) (by simp [packedFields]),
    hg (FieldLayout.r93.opx, opx) (by simp [packedFields]),
    hg (FieldLayout.r93.func, func) (by simp [packedFields])⟩

theorem readVRda_pack {op opx func : Nat} (h1 : op < 64) (h2 : opx < 2) (h3 : func < 64)
    (vd : VReg) (va : VReg) (mk : VReg → VReg → Instr) :
    readVRda FieldLayout.r93 (packVRda FieldLayout.r93 op opx func vd va).toNat mk =
      .instr (mk vd va) := by
  have hg := packVRda_get h1 h2 h3 vd va
  rw [readVRda,
    vregAt_eq (hg.1 (FieldLayout.r93.vd, vd.val) (by simp [packedFields])),
    vregAt_eq (hg.1 (FieldLayout.r93.va, va.val) (by simp [packedFields])),
    accept]
  exact if_pos hg.2

theorem readVRda_eq {w : Word} {mk : VReg → VReg → Instr} {i : Instr}
    (h : readVRda FieldLayout.r93 w.toNat mk = .instr i) :
    ∃ vd va, i = mk vd va ∧ w = packVRda FieldLayout.r93 (FieldLayout.r93.op.get w.toNat)
      (FieldLayout.r93.opx.get w.toNat) (FieldLayout.r93.func.get w.toNat) vd va := by
  unfold readVRda accept at h
  split_ifs at h with hf
  injection h with h
  have e := eq_packWord (l := FieldLayout.r93) (w := w) (ops :=
    [(FieldLayout.r93.vd, (vregAt FieldLayout.r93.vd w.toNat).val),
     (FieldLayout.r93.va, (vregAt FieldLayout.r93.va w.toNat).val)]) hf (by
      intro p hp
      simp only [List.mem_cons, List.not_mem_nil, or_false] at hp
      rcases hp with rfl | rfl
      · exact vregAt_val _ rfl
      · exact vregAt_val _ rfl)
  rw [← packVRda_eq] at e
  exact ⟨_, _, h.symm, e⟩


/-! ### VRd -/

theorem packVRd_eq (l : FieldLayout) (op opx func : Nat) (vd : VReg) :
    packVRd l op opx func vd = packWord l op opx func
      [(l.vd, vd.val)] := rfl

theorem packVRd_get {op opx func : Nat} (h1 : op < 64) (h2 : opx < 2) (h3 : func < 64)
    (vd : VReg) :
    (∀ p ∈ packedFields FieldLayout.r93 op opx func
      [(FieldLayout.r93.vd, vd.val)],
      p.1.get (packVRd FieldLayout.r93 op opx func vd).toNat = p.2) ∧
    onlyFields FieldLayout.r93
      [FieldLayout.r93.vd]
      (packVRd FieldLayout.r93 op opx func vd).toNat = true :=
  packWord_get (l := FieldLayout.r93) (ops := [(FieldLayout.r93.vd, vd.val)])
    (by simp [packedFields, apart, FieldLayout.r93])
    (by simp [packedFields, FieldLayout.r93])
    (by simp [packedFields, FieldLayout.r93, h1, h2, h3, vd.isLt])

theorem packVRd_codes {op opx func : Nat} (h1 : op < 64) (h2 : opx < 2) (h3 : func < 64)
    (vd : VReg) :
    FieldLayout.r93.op.get (packVRd FieldLayout.r93 op opx func vd).toNat = op ∧
    FieldLayout.r93.opx.get (packVRd FieldLayout.r93 op opx func vd).toNat = opx ∧
    FieldLayout.r93.func.get (packVRd FieldLayout.r93 op opx func vd).toNat = func := by
  have hg := (packVRd_get h1 h2 h3 vd).1
  exact ⟨hg (FieldLayout.r93.op, op) (by simp [packedFields]),
    hg (FieldLayout.r93.opx, opx) (by simp [packedFields]),
    hg (FieldLayout.r93.func, func) (by simp [packedFields])⟩

theorem readVRd_pack {op opx func : Nat} (h1 : op < 64) (h2 : opx < 2) (h3 : func < 64)
    (vd : VReg) (mk : VReg → Instr) :
    readVRd FieldLayout.r93 (packVRd FieldLayout.r93 op opx func vd).toNat mk =
      .instr (mk vd) := by
  have hg := packVRd_get h1 h2 h3 vd
  rw [readVRd,
    vregAt_eq (hg.1 (FieldLayout.r93.vd, vd.val) (by simp [packedFields])),
    accept]
  exact if_pos hg.2

theorem readVRd_eq {w : Word} {mk : VReg → Instr} {i : Instr}
    (h : readVRd FieldLayout.r93 w.toNat mk = .instr i) :
    ∃ vd, i = mk vd ∧ w = packVRd FieldLayout.r93 (FieldLayout.r93.op.get w.toNat)
      (FieldLayout.r93.opx.get w.toNat) (FieldLayout.r93.func.get w.toNat) vd := by
  unfold readVRd accept at h
  split_ifs at h with hf
  injection h with h
  have e := eq_packWord (l := FieldLayout.r93) (w := w) (ops :=
    [(FieldLayout.r93.vd, (vregAt FieldLayout.r93.vd w.toNat).val)]) hf (by
      intro p hp
      simp only [List.mem_cons, List.not_mem_nil, or_false] at hp
      rcases hp with rfl
      · exact vregAt_val _ rfl)
  rw [← packVRd_eq] at e
  exact ⟨_, h.symm, e⟩


/-! ### VRfff -/

theorem packVRfff_eq (l : FieldLayout) (op opx func : Nat) (fd : FReg) (fa : FReg) (fb : FReg) :
    packVRfff l op opx func fd fa fb = packWord l op opx func
      [(flagField l.vd, fd.val), (flagField l.va, fa.val), (flagField l.vb, fb.val)] := rfl

theorem packVRfff_get {op opx func : Nat} (h1 : op < 64) (h2 : opx < 2) (h3 : func < 64)
    (fd : FReg) (fa : FReg) (fb : FReg) :
    (∀ p ∈ packedFields FieldLayout.r93 op opx func
      [(flagField FieldLayout.r93.vd, fd.val), (flagField FieldLayout.r93.va, fa.val), (flagField FieldLayout.r93.vb, fb.val)],
      p.1.get (packVRfff FieldLayout.r93 op opx func fd fa fb).toNat = p.2) ∧
    onlyFields FieldLayout.r93
      [flagField FieldLayout.r93.vd, flagField FieldLayout.r93.va, flagField FieldLayout.r93.vb]
      (packVRfff FieldLayout.r93 op opx func fd fa fb).toNat = true :=
  packWord_get (l := FieldLayout.r93) (ops := [(flagField FieldLayout.r93.vd, fd.val), (flagField FieldLayout.r93.va, fa.val), (flagField FieldLayout.r93.vb, fb.val)])
    (by simp [packedFields, apart, FieldLayout.r93, flagField])
    (by simp [packedFields, FieldLayout.r93, flagField])
    (by simp [packedFields, FieldLayout.r93, flagField, h1, h2, h3, fd.isLt, fa.isLt, fb.isLt])

theorem packVRfff_codes {op opx func : Nat} (h1 : op < 64) (h2 : opx < 2) (h3 : func < 64)
    (fd : FReg) (fa : FReg) (fb : FReg) :
    FieldLayout.r93.op.get (packVRfff FieldLayout.r93 op opx func fd fa fb).toNat = op ∧
    FieldLayout.r93.opx.get (packVRfff FieldLayout.r93 op opx func fd fa fb).toNat = opx ∧
    FieldLayout.r93.func.get (packVRfff FieldLayout.r93 op opx func fd fa fb).toNat = func := by
  have hg := (packVRfff_get h1 h2 h3 fd fa fb).1
  exact ⟨hg (FieldLayout.r93.op, op) (by simp [packedFields]),
    hg (FieldLayout.r93.opx, opx) (by simp [packedFields]),
    hg (FieldLayout.r93.func, func) (by simp [packedFields])⟩

theorem readVRfff_pack {op opx func : Nat} (h1 : op < 64) (h2 : opx < 2) (h3 : func < 64)
    (fd : FReg) (fa : FReg) (fb : FReg) (mk : FReg → FReg → FReg → Instr) :
    readVRfff FieldLayout.r93 (packVRfff FieldLayout.r93 op opx func fd fa fb).toNat mk =
      .instr (mk fd fa fb) := by
  have hg := packVRfff_get h1 h2 h3 fd fa fb
  rw [readVRfff,
    fregAt_eq (hg.1 (flagField FieldLayout.r93.vd, fd.val) (by simp [packedFields])),
    fregAt_eq (hg.1 (flagField FieldLayout.r93.va, fa.val) (by simp [packedFields])),
    fregAt_eq (hg.1 (flagField FieldLayout.r93.vb, fb.val) (by simp [packedFields])),
    accept]
  exact if_pos hg.2

theorem readVRfff_eq {w : Word} {mk : FReg → FReg → FReg → Instr} {i : Instr}
    (h : readVRfff FieldLayout.r93 w.toNat mk = .instr i) :
    ∃ fd fa fb, i = mk fd fa fb ∧ w = packVRfff FieldLayout.r93 (FieldLayout.r93.op.get w.toNat)
      (FieldLayout.r93.opx.get w.toNat) (FieldLayout.r93.func.get w.toNat) fd fa fb := by
  unfold readVRfff accept at h
  split_ifs at h with hf
  injection h with h
  have e := eq_packWord (l := FieldLayout.r93) (w := w) (ops :=
    [(flagField FieldLayout.r93.vd, (fregAt FieldLayout.r93.vd w.toNat).val),
     (flagField FieldLayout.r93.va, (fregAt FieldLayout.r93.va w.toNat).val),
     (flagField FieldLayout.r93.vb, (fregAt FieldLayout.r93.vb w.toNat).val)]) hf (by
      intro p hp
      simp only [List.mem_cons, List.not_mem_nil, or_false] at hp
      rcases hp with rfl | rfl | rfl
      · exact fregAt_val _ _
      · exact fregAt_val _ _
      · exact fregAt_val _ _)
  rw [← packVRfff_eq] at e
  exact ⟨_, _, _, h.symm, e⟩


/-! ### VRff -/

theorem packVRff_eq (l : FieldLayout) (op opx func : Nat) (fd : FReg) (fa : FReg) :
    packVRff l op opx func fd fa = packWord l op opx func
      [(flagField l.vd, fd.val), (flagField l.va, fa.val)] := rfl

theorem packVRff_get {op opx func : Nat} (h1 : op < 64) (h2 : opx < 2) (h3 : func < 64)
    (fd : FReg) (fa : FReg) :
    (∀ p ∈ packedFields FieldLayout.r93 op opx func
      [(flagField FieldLayout.r93.vd, fd.val), (flagField FieldLayout.r93.va, fa.val)],
      p.1.get (packVRff FieldLayout.r93 op opx func fd fa).toNat = p.2) ∧
    onlyFields FieldLayout.r93
      [flagField FieldLayout.r93.vd, flagField FieldLayout.r93.va]
      (packVRff FieldLayout.r93 op opx func fd fa).toNat = true :=
  packWord_get (l := FieldLayout.r93) (ops := [(flagField FieldLayout.r93.vd, fd.val), (flagField FieldLayout.r93.va, fa.val)])
    (by simp [packedFields, apart, FieldLayout.r93, flagField])
    (by simp [packedFields, FieldLayout.r93, flagField])
    (by simp [packedFields, FieldLayout.r93, flagField, h1, h2, h3, fd.isLt, fa.isLt])

theorem packVRff_codes {op opx func : Nat} (h1 : op < 64) (h2 : opx < 2) (h3 : func < 64)
    (fd : FReg) (fa : FReg) :
    FieldLayout.r93.op.get (packVRff FieldLayout.r93 op opx func fd fa).toNat = op ∧
    FieldLayout.r93.opx.get (packVRff FieldLayout.r93 op opx func fd fa).toNat = opx ∧
    FieldLayout.r93.func.get (packVRff FieldLayout.r93 op opx func fd fa).toNat = func := by
  have hg := (packVRff_get h1 h2 h3 fd fa).1
  exact ⟨hg (FieldLayout.r93.op, op) (by simp [packedFields]),
    hg (FieldLayout.r93.opx, opx) (by simp [packedFields]),
    hg (FieldLayout.r93.func, func) (by simp [packedFields])⟩

theorem readVRff_pack {op opx func : Nat} (h1 : op < 64) (h2 : opx < 2) (h3 : func < 64)
    (fd : FReg) (fa : FReg) (mk : FReg → FReg → Instr) :
    readVRff FieldLayout.r93 (packVRff FieldLayout.r93 op opx func fd fa).toNat mk =
      .instr (mk fd fa) := by
  have hg := packVRff_get h1 h2 h3 fd fa
  rw [readVRff,
    fregAt_eq (hg.1 (flagField FieldLayout.r93.vd, fd.val) (by simp [packedFields])),
    fregAt_eq (hg.1 (flagField FieldLayout.r93.va, fa.val) (by simp [packedFields])),
    accept]
  exact if_pos hg.2

theorem readVRff_eq {w : Word} {mk : FReg → FReg → Instr} {i : Instr}
    (h : readVRff FieldLayout.r93 w.toNat mk = .instr i) :
    ∃ fd fa, i = mk fd fa ∧ w = packVRff FieldLayout.r93 (FieldLayout.r93.op.get w.toNat)
      (FieldLayout.r93.opx.get w.toNat) (FieldLayout.r93.func.get w.toNat) fd fa := by
  unfold readVRff accept at h
  split_ifs at h with hf
  injection h with h
  have e := eq_packWord (l := FieldLayout.r93) (w := w) (ops :=
    [(flagField FieldLayout.r93.vd, (fregAt FieldLayout.r93.vd w.toNat).val),
     (flagField FieldLayout.r93.va, (fregAt FieldLayout.r93.va w.toNat).val)]) hf (by
      intro p hp
      simp only [List.mem_cons, List.not_mem_nil, or_false] at hp
      rcases hp with rfl | rfl
      · exact fregAt_val _ _
      · exact fregAt_val _ _)
  rw [← packVRff_eq] at e
  exact ⟨_, _, h.symm, e⟩


/-! ### VRf -/

theorem packVRf_eq (l : FieldLayout) (op opx func : Nat) (fd : FReg) :
    packVRf l op opx func fd = packWord l op opx func
      [(flagField l.vd, fd.val)] := rfl

theorem packVRf_get {op opx func : Nat} (h1 : op < 64) (h2 : opx < 2) (h3 : func < 64)
    (fd : FReg) :
    (∀ p ∈ packedFields FieldLayout.r93 op opx func
      [(flagField FieldLayout.r93.vd, fd.val)],
      p.1.get (packVRf FieldLayout.r93 op opx func fd).toNat = p.2) ∧
    onlyFields FieldLayout.r93
      [flagField FieldLayout.r93.vd]
      (packVRf FieldLayout.r93 op opx func fd).toNat = true :=
  packWord_get (l := FieldLayout.r93) (ops := [(flagField FieldLayout.r93.vd, fd.val)])
    (by simp [packedFields, apart, FieldLayout.r93, flagField])
    (by simp [packedFields, FieldLayout.r93, flagField])
    (by simp [packedFields, FieldLayout.r93, flagField, h1, h2, h3, fd.isLt])

theorem packVRf_codes {op opx func : Nat} (h1 : op < 64) (h2 : opx < 2) (h3 : func < 64)
    (fd : FReg) :
    FieldLayout.r93.op.get (packVRf FieldLayout.r93 op opx func fd).toNat = op ∧
    FieldLayout.r93.opx.get (packVRf FieldLayout.r93 op opx func fd).toNat = opx ∧
    FieldLayout.r93.func.get (packVRf FieldLayout.r93 op opx func fd).toNat = func := by
  have hg := (packVRf_get h1 h2 h3 fd).1
  exact ⟨hg (FieldLayout.r93.op, op) (by simp [packedFields]),
    hg (FieldLayout.r93.opx, opx) (by simp [packedFields]),
    hg (FieldLayout.r93.func, func) (by simp [packedFields])⟩

theorem readVRf_pack {op opx func : Nat} (h1 : op < 64) (h2 : opx < 2) (h3 : func < 64)
    (fd : FReg) (mk : FReg → Instr) :
    readVRf FieldLayout.r93 (packVRf FieldLayout.r93 op opx func fd).toNat mk =
      .instr (mk fd) := by
  have hg := packVRf_get h1 h2 h3 fd
  rw [readVRf,
    fregAt_eq (hg.1 (flagField FieldLayout.r93.vd, fd.val) (by simp [packedFields])),
    accept]
  exact if_pos hg.2

theorem readVRf_eq {w : Word} {mk : FReg → Instr} {i : Instr}
    (h : readVRf FieldLayout.r93 w.toNat mk = .instr i) :
    ∃ fd, i = mk fd ∧ w = packVRf FieldLayout.r93 (FieldLayout.r93.op.get w.toNat)
      (FieldLayout.r93.opx.get w.toNat) (FieldLayout.r93.func.get w.toNat) fd := by
  unfold readVRf accept at h
  split_ifs at h with hf
  injection h with h
  have e := eq_packWord (l := FieldLayout.r93) (w := w) (ops :=
    [(flagField FieldLayout.r93.vd, (fregAt FieldLayout.r93.vd w.toNat).val)]) hf (by
      intro p hp
      simp only [List.mem_cons, List.not_mem_nil, or_false] at hp
      rcases hp with rfl
      · exact fregAt_val _ _)
  rw [← packVRf_eq] at e
  exact ⟨_, h.symm, e⟩


/-! ### SSvs -/

theorem packSSvs_eq (l : FieldLayout) (op opx func : Nat) (m : MaskSel) (vd : VReg) (va : VReg) (rs : SReg) :
    packSSvs l op opx func m vd va rs = packWord l op opx func
      [(l.mask, maskBit m), (l.vd, vd.val), (l.va, va.val), (l.rsSrc, rs.val)] := rfl

theorem packSSvs_get {op opx func : Nat} (h1 : op < 64) (h2 : opx < 2) (h3 : func < 64)
    (m : MaskSel) (vd : VReg) (va : VReg) (rs : SReg) :
    (∀ p ∈ packedFields FieldLayout.r93 op opx func
      [(FieldLayout.r93.mask, maskBit m), (FieldLayout.r93.vd, vd.val), (FieldLayout.r93.va, va.val), (FieldLayout.r93.rsSrc, rs.val)],
      p.1.get (packSSvs FieldLayout.r93 op opx func m vd va rs).toNat = p.2) ∧
    onlyFields FieldLayout.r93
      [FieldLayout.r93.mask, FieldLayout.r93.vd, FieldLayout.r93.va, FieldLayout.r93.rsSrc]
      (packSSvs FieldLayout.r93 op opx func m vd va rs).toNat = true :=
  packWord_get (l := FieldLayout.r93) (ops := [(FieldLayout.r93.mask, maskBit m), (FieldLayout.r93.vd, vd.val), (FieldLayout.r93.va, va.val), (FieldLayout.r93.rsSrc, rs.val)])
    (by simp [packedFields, apart, FieldLayout.r93])
    (by simp [packedFields, FieldLayout.r93])
    (by simp [packedFields, FieldLayout.r93, h1, h2, h3, maskBit_lt m, vd.isLt, va.isLt, rs.isLt])

theorem packSSvs_codes {op opx func : Nat} (h1 : op < 64) (h2 : opx < 2) (h3 : func < 64)
    (m : MaskSel) (vd : VReg) (va : VReg) (rs : SReg) :
    FieldLayout.r93.op.get (packSSvs FieldLayout.r93 op opx func m vd va rs).toNat = op ∧
    FieldLayout.r93.opx.get (packSSvs FieldLayout.r93 op opx func m vd va rs).toNat = opx ∧
    FieldLayout.r93.func.get (packSSvs FieldLayout.r93 op opx func m vd va rs).toNat = func := by
  have hg := (packSSvs_get h1 h2 h3 m vd va rs).1
  exact ⟨hg (FieldLayout.r93.op, op) (by simp [packedFields]),
    hg (FieldLayout.r93.opx, opx) (by simp [packedFields]),
    hg (FieldLayout.r93.func, func) (by simp [packedFields])⟩

theorem readSSvs_pack {op opx func : Nat} (h1 : op < 64) (h2 : opx < 2) (h3 : func < 64)
    (m : MaskSel) (vd : VReg) (va : VReg) (rs : SReg) (mk : MaskSel → VReg → VReg → SReg → Instr) :
    readSSvs FieldLayout.r93 (packSSvs FieldLayout.r93 op opx func m vd va rs).toNat mk =
      .instr (mk m vd va rs) := by
  have hg := packSSvs_get h1 h2 h3 m vd va rs
  rw [readSSvs,
    maskAt_eq (hg.1 (FieldLayout.r93.mask, maskBit m) (by simp [packedFields])),
    vregAt_eq (hg.1 (FieldLayout.r93.vd, vd.val) (by simp [packedFields])),
    vregAt_eq (hg.1 (FieldLayout.r93.va, va.val) (by simp [packedFields])),
    sregAt_eq (hg.1 (FieldLayout.r93.rsSrc, rs.val) (by simp [packedFields])),
    accept]
  exact if_pos hg.2

theorem readSSvs_eq {w : Word} {mk : MaskSel → VReg → VReg → SReg → Instr} {i : Instr}
    (h : readSSvs FieldLayout.r93 w.toNat mk = .instr i) :
    ∃ m vd va rs, i = mk m vd va rs ∧ w = packSSvs FieldLayout.r93 (FieldLayout.r93.op.get w.toNat)
      (FieldLayout.r93.opx.get w.toNat) (FieldLayout.r93.func.get w.toNat) m vd va rs := by
  unfold readSSvs accept at h
  split_ifs at h with hf
  injection h with h
  have e := eq_packWord (l := FieldLayout.r93) (w := w) (ops :=
    [(FieldLayout.r93.mask, maskBit (maskAt FieldLayout.r93 w.toNat)),
     (FieldLayout.r93.vd, (vregAt FieldLayout.r93.vd w.toNat).val),
     (FieldLayout.r93.va, (vregAt FieldLayout.r93.va w.toNat).val),
     (FieldLayout.r93.rsSrc, (sregAt FieldLayout.r93.rsSrc w.toNat).val)]) hf (by
      intro p hp
      simp only [List.mem_cons, List.not_mem_nil, or_false] at hp
      rcases hp with rfl | rfl | rfl | rfl
      · exact maskBit_maskAt _ rfl
      · exact vregAt_val _ rfl
      · exact vregAt_val _ rfl
      · exact sregAt_val _ rfl)
  rw [← packSSvs_eq] at e
  exact ⟨_, _, _, _, h.symm, e⟩


/-! ### SSfvs -/

theorem packSSfvs_eq (l : FieldLayout) (op opx func : Nat) (m : MaskSel) (fd : FReg) (va : VReg) (rs : SReg) :
    packSSfvs l op opx func m fd va rs = packWord l op opx func
      [(l.mask, maskBit m), (flagField l.vd, fd.val), (l.va, va.val), (l.rsSrc, rs.val)] := rfl

theorem packSSfvs_get {op opx func : Nat} (h1 : op < 64) (h2 : opx < 2) (h3 : func < 64)
    (m : MaskSel) (fd : FReg) (va : VReg) (rs : SReg) :
    (∀ p ∈ packedFields FieldLayout.r93 op opx func
      [(FieldLayout.r93.mask, maskBit m), (flagField FieldLayout.r93.vd, fd.val), (FieldLayout.r93.va, va.val), (FieldLayout.r93.rsSrc, rs.val)],
      p.1.get (packSSfvs FieldLayout.r93 op opx func m fd va rs).toNat = p.2) ∧
    onlyFields FieldLayout.r93
      [FieldLayout.r93.mask, flagField FieldLayout.r93.vd, FieldLayout.r93.va, FieldLayout.r93.rsSrc]
      (packSSfvs FieldLayout.r93 op opx func m fd va rs).toNat = true :=
  packWord_get (l := FieldLayout.r93) (ops := [(FieldLayout.r93.mask, maskBit m), (flagField FieldLayout.r93.vd, fd.val), (FieldLayout.r93.va, va.val), (FieldLayout.r93.rsSrc, rs.val)])
    (by simp [packedFields, apart, FieldLayout.r93, flagField])
    (by simp [packedFields, FieldLayout.r93, flagField])
    (by simp [packedFields, FieldLayout.r93, flagField, h1, h2, h3, maskBit_lt m, fd.isLt, va.isLt, rs.isLt])

theorem packSSfvs_codes {op opx func : Nat} (h1 : op < 64) (h2 : opx < 2) (h3 : func < 64)
    (m : MaskSel) (fd : FReg) (va : VReg) (rs : SReg) :
    FieldLayout.r93.op.get (packSSfvs FieldLayout.r93 op opx func m fd va rs).toNat = op ∧
    FieldLayout.r93.opx.get (packSSfvs FieldLayout.r93 op opx func m fd va rs).toNat = opx ∧
    FieldLayout.r93.func.get (packSSfvs FieldLayout.r93 op opx func m fd va rs).toNat = func := by
  have hg := (packSSfvs_get h1 h2 h3 m fd va rs).1
  exact ⟨hg (FieldLayout.r93.op, op) (by simp [packedFields]),
    hg (FieldLayout.r93.opx, opx) (by simp [packedFields]),
    hg (FieldLayout.r93.func, func) (by simp [packedFields])⟩

theorem readSSfvs_pack {op opx func : Nat} (h1 : op < 64) (h2 : opx < 2) (h3 : func < 64)
    (m : MaskSel) (fd : FReg) (va : VReg) (rs : SReg) (mk : MaskSel → FReg → VReg → SReg → Instr) :
    readSSfvs FieldLayout.r93 (packSSfvs FieldLayout.r93 op opx func m fd va rs).toNat mk =
      .instr (mk m fd va rs) := by
  have hg := packSSfvs_get h1 h2 h3 m fd va rs
  rw [readSSfvs,
    maskAt_eq (hg.1 (FieldLayout.r93.mask, maskBit m) (by simp [packedFields])),
    fregAt_eq (hg.1 (flagField FieldLayout.r93.vd, fd.val) (by simp [packedFields])),
    vregAt_eq (hg.1 (FieldLayout.r93.va, va.val) (by simp [packedFields])),
    sregAt_eq (hg.1 (FieldLayout.r93.rsSrc, rs.val) (by simp [packedFields])),
    accept]
  exact if_pos hg.2

theorem readSSfvs_eq {w : Word} {mk : MaskSel → FReg → VReg → SReg → Instr} {i : Instr}
    (h : readSSfvs FieldLayout.r93 w.toNat mk = .instr i) :
    ∃ m fd va rs, i = mk m fd va rs ∧ w = packSSfvs FieldLayout.r93 (FieldLayout.r93.op.get w.toNat)
      (FieldLayout.r93.opx.get w.toNat) (FieldLayout.r93.func.get w.toNat) m fd va rs := by
  unfold readSSfvs accept at h
  split_ifs at h with hf
  injection h with h
  have e := eq_packWord (l := FieldLayout.r93) (w := w) (ops :=
    [(FieldLayout.r93.mask, maskBit (maskAt FieldLayout.r93 w.toNat)),
     (flagField FieldLayout.r93.vd, (fregAt FieldLayout.r93.vd w.toNat).val),
     (FieldLayout.r93.va, (vregAt FieldLayout.r93.va w.toNat).val),
     (FieldLayout.r93.rsSrc, (sregAt FieldLayout.r93.rsSrc w.toNat).val)]) hf (by
      intro p hp
      simp only [List.mem_cons, List.not_mem_nil, or_false] at hp
      rcases hp with rfl | rfl | rfl | rfl
      · exact maskBit_maskAt _ rfl
      · exact fregAt_val _ _
      · exact vregAt_val _ rfl
      · exact sregAt_val _ rfl)
  rw [← packSSfvs_eq] at e
  exact ⟨_, _, _, _, h.symm, e⟩


/-! ### SSa -/

theorem packSSa_eq (l : FieldLayout) (op opx func : Nat) (m : MaskSel) (va : VReg) (rs : SReg) :
    packSSa l op opx func m va rs = packWord l op opx func
      [(l.mask, maskBit m), (l.va, va.val), (l.rsSrc, rs.val)] := rfl

theorem packSSa_get {op opx func : Nat} (h1 : op < 64) (h2 : opx < 2) (h3 : func < 64)
    (m : MaskSel) (va : VReg) (rs : SReg) :
    (∀ p ∈ packedFields FieldLayout.r93 op opx func
      [(FieldLayout.r93.mask, maskBit m), (FieldLayout.r93.va, va.val), (FieldLayout.r93.rsSrc, rs.val)],
      p.1.get (packSSa FieldLayout.r93 op opx func m va rs).toNat = p.2) ∧
    onlyFields FieldLayout.r93
      [FieldLayout.r93.mask, FieldLayout.r93.va, FieldLayout.r93.rsSrc]
      (packSSa FieldLayout.r93 op opx func m va rs).toNat = true :=
  packWord_get (l := FieldLayout.r93) (ops := [(FieldLayout.r93.mask, maskBit m), (FieldLayout.r93.va, va.val), (FieldLayout.r93.rsSrc, rs.val)])
    (by simp [packedFields, apart, FieldLayout.r93])
    (by simp [packedFields, FieldLayout.r93])
    (by simp [packedFields, FieldLayout.r93, h1, h2, h3, maskBit_lt m, va.isLt, rs.isLt])

theorem packSSa_codes {op opx func : Nat} (h1 : op < 64) (h2 : opx < 2) (h3 : func < 64)
    (m : MaskSel) (va : VReg) (rs : SReg) :
    FieldLayout.r93.op.get (packSSa FieldLayout.r93 op opx func m va rs).toNat = op ∧
    FieldLayout.r93.opx.get (packSSa FieldLayout.r93 op opx func m va rs).toNat = opx ∧
    FieldLayout.r93.func.get (packSSa FieldLayout.r93 op opx func m va rs).toNat = func := by
  have hg := (packSSa_get h1 h2 h3 m va rs).1
  exact ⟨hg (FieldLayout.r93.op, op) (by simp [packedFields]),
    hg (FieldLayout.r93.opx, opx) (by simp [packedFields]),
    hg (FieldLayout.r93.func, func) (by simp [packedFields])⟩

theorem readSSa_pack {op opx func : Nat} (h1 : op < 64) (h2 : opx < 2) (h3 : func < 64)
    (m : MaskSel) (va : VReg) (rs : SReg) (mk : MaskSel → VReg → SReg → Instr) :
    readSSa FieldLayout.r93 (packSSa FieldLayout.r93 op opx func m va rs).toNat mk =
      .instr (mk m va rs) := by
  have hg := packSSa_get h1 h2 h3 m va rs
  rw [readSSa,
    maskAt_eq (hg.1 (FieldLayout.r93.mask, maskBit m) (by simp [packedFields])),
    vregAt_eq (hg.1 (FieldLayout.r93.va, va.val) (by simp [packedFields])),
    sregAt_eq (hg.1 (FieldLayout.r93.rsSrc, rs.val) (by simp [packedFields])),
    accept]
  exact if_pos hg.2

theorem readSSa_eq {w : Word} {mk : MaskSel → VReg → SReg → Instr} {i : Instr}
    (h : readSSa FieldLayout.r93 w.toNat mk = .instr i) :
    ∃ m va rs, i = mk m va rs ∧ w = packSSa FieldLayout.r93 (FieldLayout.r93.op.get w.toNat)
      (FieldLayout.r93.opx.get w.toNat) (FieldLayout.r93.func.get w.toNat) m va rs := by
  unfold readSSa accept at h
  split_ifs at h with hf
  injection h with h
  have e := eq_packWord (l := FieldLayout.r93) (w := w) (ops :=
    [(FieldLayout.r93.mask, maskBit (maskAt FieldLayout.r93 w.toNat)),
     (FieldLayout.r93.va, (vregAt FieldLayout.r93.va w.toNat).val),
     (FieldLayout.r93.rsSrc, (sregAt FieldLayout.r93.rsSrc w.toNat).val)]) hf (by
      intro p hp
      simp only [List.mem_cons, List.not_mem_nil, or_false] at hp
      rcases hp with rfl | rfl | rfl
      · exact maskBit_maskAt _ rfl
      · exact vregAt_val _ rfl
      · exact sregAt_val _ rfl)
  rw [← packSSa_eq] at e
  exact ⟨_, _, _, h.symm, e⟩


/-! ### SSd -/

theorem packSSd_eq (l : FieldLayout) (op opx func : Nat) (vd : VReg) (rs : SReg) :
    packSSd l op opx func vd rs = packWord l op opx func
      [(l.vd, vd.val), (l.rsSrc, rs.val)] := rfl

theorem packSSd_get {op opx func : Nat} (h1 : op < 64) (h2 : opx < 2) (h3 : func < 64)
    (vd : VReg) (rs : SReg) :
    (∀ p ∈ packedFields FieldLayout.r93 op opx func
      [(FieldLayout.r93.vd, vd.val), (FieldLayout.r93.rsSrc, rs.val)],
      p.1.get (packSSd FieldLayout.r93 op opx func vd rs).toNat = p.2) ∧
    onlyFields FieldLayout.r93
      [FieldLayout.r93.vd, FieldLayout.r93.rsSrc]
      (packSSd FieldLayout.r93 op opx func vd rs).toNat = true :=
  packWord_get (l := FieldLayout.r93) (ops := [(FieldLayout.r93.vd, vd.val), (FieldLayout.r93.rsSrc, rs.val)])
    (by simp [packedFields, apart, FieldLayout.r93])
    (by simp [packedFields, FieldLayout.r93])
    (by simp [packedFields, FieldLayout.r93, h1, h2, h3, vd.isLt, rs.isLt])

theorem packSSd_codes {op opx func : Nat} (h1 : op < 64) (h2 : opx < 2) (h3 : func < 64)
    (vd : VReg) (rs : SReg) :
    FieldLayout.r93.op.get (packSSd FieldLayout.r93 op opx func vd rs).toNat = op ∧
    FieldLayout.r93.opx.get (packSSd FieldLayout.r93 op opx func vd rs).toNat = opx ∧
    FieldLayout.r93.func.get (packSSd FieldLayout.r93 op opx func vd rs).toNat = func := by
  have hg := (packSSd_get h1 h2 h3 vd rs).1
  exact ⟨hg (FieldLayout.r93.op, op) (by simp [packedFields]),
    hg (FieldLayout.r93.opx, opx) (by simp [packedFields]),
    hg (FieldLayout.r93.func, func) (by simp [packedFields])⟩

theorem readSSd_pack {op opx func : Nat} (h1 : op < 64) (h2 : opx < 2) (h3 : func < 64)
    (vd : VReg) (rs : SReg) (mk : VReg → SReg → Instr) :
    readSSd FieldLayout.r93 (packSSd FieldLayout.r93 op opx func vd rs).toNat mk =
      .instr (mk vd rs) := by
  have hg := packSSd_get h1 h2 h3 vd rs
  rw [readSSd,
    vregAt_eq (hg.1 (FieldLayout.r93.vd, vd.val) (by simp [packedFields])),
    sregAt_eq (hg.1 (FieldLayout.r93.rsSrc, rs.val) (by simp [packedFields])),
    accept]
  exact if_pos hg.2

theorem readSSd_eq {w : Word} {mk : VReg → SReg → Instr} {i : Instr}
    (h : readSSd FieldLayout.r93 w.toNat mk = .instr i) :
    ∃ vd rs, i = mk vd rs ∧ w = packSSd FieldLayout.r93 (FieldLayout.r93.op.get w.toNat)
      (FieldLayout.r93.opx.get w.toNat) (FieldLayout.r93.func.get w.toNat) vd rs := by
  unfold readSSd accept at h
  split_ifs at h with hf
  injection h with h
  have e := eq_packWord (l := FieldLayout.r93) (w := w) (ops :=
    [(FieldLayout.r93.vd, (vregAt FieldLayout.r93.vd w.toNat).val),
     (FieldLayout.r93.rsSrc, (sregAt FieldLayout.r93.rsSrc w.toNat).val)]) hf (by
      intro p hp
      simp only [List.mem_cons, List.not_mem_nil, or_false] at hp
      rcases hp with rfl | rfl
      · exact vregAt_val _ rfl
      · exact sregAt_val _ rfl)
  rw [← packSSd_eq] at e
  exact ⟨_, _, h.symm, e⟩


/-! ### SSff -/

theorem packSSff_eq (l : FieldLayout) (op opx func : Nat) (fd : FReg) (fa : FReg) (rs : SReg) :
    packSSff l op opx func fd fa rs = packWord l op opx func
      [(flagField l.vd, fd.val), (flagField l.va, fa.val), (l.rsSrc, rs.val)] := rfl

theorem packSSff_get {op opx func : Nat} (h1 : op < 64) (h2 : opx < 2) (h3 : func < 64)
    (fd : FReg) (fa : FReg) (rs : SReg) :
    (∀ p ∈ packedFields FieldLayout.r93 op opx func
      [(flagField FieldLayout.r93.vd, fd.val), (flagField FieldLayout.r93.va, fa.val), (FieldLayout.r93.rsSrc, rs.val)],
      p.1.get (packSSff FieldLayout.r93 op opx func fd fa rs).toNat = p.2) ∧
    onlyFields FieldLayout.r93
      [flagField FieldLayout.r93.vd, flagField FieldLayout.r93.va, FieldLayout.r93.rsSrc]
      (packSSff FieldLayout.r93 op opx func fd fa rs).toNat = true :=
  packWord_get (l := FieldLayout.r93) (ops := [(flagField FieldLayout.r93.vd, fd.val), (flagField FieldLayout.r93.va, fa.val), (FieldLayout.r93.rsSrc, rs.val)])
    (by simp [packedFields, apart, FieldLayout.r93, flagField])
    (by simp [packedFields, FieldLayout.r93, flagField])
    (by simp [packedFields, FieldLayout.r93, flagField, h1, h2, h3, fd.isLt, fa.isLt, rs.isLt])

theorem packSSff_codes {op opx func : Nat} (h1 : op < 64) (h2 : opx < 2) (h3 : func < 64)
    (fd : FReg) (fa : FReg) (rs : SReg) :
    FieldLayout.r93.op.get (packSSff FieldLayout.r93 op opx func fd fa rs).toNat = op ∧
    FieldLayout.r93.opx.get (packSSff FieldLayout.r93 op opx func fd fa rs).toNat = opx ∧
    FieldLayout.r93.func.get (packSSff FieldLayout.r93 op opx func fd fa rs).toNat = func := by
  have hg := (packSSff_get h1 h2 h3 fd fa rs).1
  exact ⟨hg (FieldLayout.r93.op, op) (by simp [packedFields]),
    hg (FieldLayout.r93.opx, opx) (by simp [packedFields]),
    hg (FieldLayout.r93.func, func) (by simp [packedFields])⟩

theorem readSSff_pack {op opx func : Nat} (h1 : op < 64) (h2 : opx < 2) (h3 : func < 64)
    (fd : FReg) (fa : FReg) (rs : SReg) (mk : FReg → FReg → SReg → Instr) :
    readSSff FieldLayout.r93 (packSSff FieldLayout.r93 op opx func fd fa rs).toNat mk =
      .instr (mk fd fa rs) := by
  have hg := packSSff_get h1 h2 h3 fd fa rs
  rw [readSSff,
    fregAt_eq (hg.1 (flagField FieldLayout.r93.vd, fd.val) (by simp [packedFields])),
    fregAt_eq (hg.1 (flagField FieldLayout.r93.va, fa.val) (by simp [packedFields])),
    sregAt_eq (hg.1 (FieldLayout.r93.rsSrc, rs.val) (by simp [packedFields])),
    accept]
  exact if_pos hg.2

theorem readSSff_eq {w : Word} {mk : FReg → FReg → SReg → Instr} {i : Instr}
    (h : readSSff FieldLayout.r93 w.toNat mk = .instr i) :
    ∃ fd fa rs, i = mk fd fa rs ∧ w = packSSff FieldLayout.r93 (FieldLayout.r93.op.get w.toNat)
      (FieldLayout.r93.opx.get w.toNat) (FieldLayout.r93.func.get w.toNat) fd fa rs := by
  unfold readSSff accept at h
  split_ifs at h with hf
  injection h with h
  have e := eq_packWord (l := FieldLayout.r93) (w := w) (ops :=
    [(flagField FieldLayout.r93.vd, (fregAt FieldLayout.r93.vd w.toNat).val),
     (flagField FieldLayout.r93.va, (fregAt FieldLayout.r93.va w.toNat).val),
     (FieldLayout.r93.rsSrc, (sregAt FieldLayout.r93.rsSrc w.toNat).val)]) hf (by
      intro p hp
      simp only [List.mem_cons, List.not_mem_nil, or_false] at hp
      rcases hp with rfl | rfl | rfl
      · exact fregAt_val _ _
      · exact fregAt_val _ _
      · exact sregAt_val _ rfl)
  rw [← packSSff_eq] at e
  exact ⟨_, _, _, h.symm, e⟩


/-! ### SSf -/

theorem packSSf_eq (l : FieldLayout) (op opx func : Nat) (fd : FReg) (rs : SReg) :
    packSSf l op opx func fd rs = packWord l op opx func
      [(flagField l.vd, fd.val), (l.rsSrc, rs.val)] := rfl

theorem packSSf_get {op opx func : Nat} (h1 : op < 64) (h2 : opx < 2) (h3 : func < 64)
    (fd : FReg) (rs : SReg) :
    (∀ p ∈ packedFields FieldLayout.r93 op opx func
      [(flagField FieldLayout.r93.vd, fd.val), (FieldLayout.r93.rsSrc, rs.val)],
      p.1.get (packSSf FieldLayout.r93 op opx func fd rs).toNat = p.2) ∧
    onlyFields FieldLayout.r93
      [flagField FieldLayout.r93.vd, FieldLayout.r93.rsSrc]
      (packSSf FieldLayout.r93 op opx func fd rs).toNat = true :=
  packWord_get (l := FieldLayout.r93) (ops := [(flagField FieldLayout.r93.vd, fd.val), (FieldLayout.r93.rsSrc, rs.val)])
    (by simp [packedFields, apart, FieldLayout.r93, flagField])
    (by simp [packedFields, FieldLayout.r93, flagField])
    (by simp [packedFields, FieldLayout.r93, flagField, h1, h2, h3, fd.isLt, rs.isLt])

theorem packSSf_codes {op opx func : Nat} (h1 : op < 64) (h2 : opx < 2) (h3 : func < 64)
    (fd : FReg) (rs : SReg) :
    FieldLayout.r93.op.get (packSSf FieldLayout.r93 op opx func fd rs).toNat = op ∧
    FieldLayout.r93.opx.get (packSSf FieldLayout.r93 op opx func fd rs).toNat = opx ∧
    FieldLayout.r93.func.get (packSSf FieldLayout.r93 op opx func fd rs).toNat = func := by
  have hg := (packSSf_get h1 h2 h3 fd rs).1
  exact ⟨hg (FieldLayout.r93.op, op) (by simp [packedFields]),
    hg (FieldLayout.r93.opx, opx) (by simp [packedFields]),
    hg (FieldLayout.r93.func, func) (by simp [packedFields])⟩

theorem readSSf_pack {op opx func : Nat} (h1 : op < 64) (h2 : opx < 2) (h3 : func < 64)
    (fd : FReg) (rs : SReg) (mk : FReg → SReg → Instr) :
    readSSf FieldLayout.r93 (packSSf FieldLayout.r93 op opx func fd rs).toNat mk =
      .instr (mk fd rs) := by
  have hg := packSSf_get h1 h2 h3 fd rs
  rw [readSSf,
    fregAt_eq (hg.1 (flagField FieldLayout.r93.vd, fd.val) (by simp [packedFields])),
    sregAt_eq (hg.1 (FieldLayout.r93.rsSrc, rs.val) (by simp [packedFields])),
    accept]
  exact if_pos hg.2

theorem readSSf_eq {w : Word} {mk : FReg → SReg → Instr} {i : Instr}
    (h : readSSf FieldLayout.r93 w.toNat mk = .instr i) :
    ∃ fd rs, i = mk fd rs ∧ w = packSSf FieldLayout.r93 (FieldLayout.r93.op.get w.toNat)
      (FieldLayout.r93.opx.get w.toNat) (FieldLayout.r93.func.get w.toNat) fd rs := by
  unfold readSSf accept at h
  split_ifs at h with hf
  injection h with h
  have e := eq_packWord (l := FieldLayout.r93) (w := w) (ops :=
    [(flagField FieldLayout.r93.vd, (fregAt FieldLayout.r93.vd w.toNat).val),
     (FieldLayout.r93.rsSrc, (sregAt FieldLayout.r93.rsSrc w.toNat).val)]) hf (by
      intro p hp
      simp only [List.mem_cons, List.not_mem_nil, or_false] at hp
      rcases hp with rfl | rfl
      · exact fregAt_val _ _
      · exact sregAt_val _ rfl)
  rw [← packSSf_eq] at e
  exact ⟨_, _, h.symm, e⟩


/-! ### SSc -/

theorem packSSc_eq (l : FieldLayout) (op opx func : Nat) (vc : CReg) (rs : SReg) :
    packSSc l op opx func vc rs = packWord l op opx func
      [(l.vd, vc.val), (l.rsSrc, rs.val)] := rfl

theorem packSSc_get {op opx func : Nat} (h1 : op < 64) (h2 : opx < 2) (h3 : func < 64)
    (vc : CReg) (rs : SReg) :
    (∀ p ∈ packedFields FieldLayout.r93 op opx func
      [(FieldLayout.r93.vd, vc.val), (FieldLayout.r93.rsSrc, rs.val)],
      p.1.get (packSSc FieldLayout.r93 op opx func vc rs).toNat = p.2) ∧
    onlyFields FieldLayout.r93
      [FieldLayout.r93.vd, FieldLayout.r93.rsSrc]
      (packSSc FieldLayout.r93 op opx func vc rs).toNat = true :=
  packWord_get (l := FieldLayout.r93) (ops := [(FieldLayout.r93.vd, vc.val), (FieldLayout.r93.rsSrc, rs.val)])
    (by simp [packedFields, apart, FieldLayout.r93])
    (by simp [packedFields, FieldLayout.r93])
    (by simp [packedFields, FieldLayout.r93, h1, h2, h3, vc.isLt, rs.isLt])

theorem packSSc_codes {op opx func : Nat} (h1 : op < 64) (h2 : opx < 2) (h3 : func < 64)
    (vc : CReg) (rs : SReg) :
    FieldLayout.r93.op.get (packSSc FieldLayout.r93 op opx func vc rs).toNat = op ∧
    FieldLayout.r93.opx.get (packSSc FieldLayout.r93 op opx func vc rs).toNat = opx ∧
    FieldLayout.r93.func.get (packSSc FieldLayout.r93 op opx func vc rs).toNat = func := by
  have hg := (packSSc_get h1 h2 h3 vc rs).1
  exact ⟨hg (FieldLayout.r93.op, op) (by simp [packedFields]),
    hg (FieldLayout.r93.opx, opx) (by simp [packedFields]),
    hg (FieldLayout.r93.func, func) (by simp [packedFields])⟩

theorem readSSc_pack {op opx func : Nat} (h1 : op < 64) (h2 : opx < 2) (h3 : func < 64)
    (vc : CReg) (rs : SReg) (mk : CReg → SReg → Instr) :
    readSSc FieldLayout.r93 (packSSc FieldLayout.r93 op opx func vc rs).toNat mk =
      .instr (mk vc rs) := by
  have hg := packSSc_get h1 h2 h3 vc rs
  rw [readSSc,
    vregAt_eq (hg.1 (FieldLayout.r93.vd, vc.val) (by simp [packedFields])),
    sregAt_eq (hg.1 (FieldLayout.r93.rsSrc, rs.val) (by simp [packedFields])),
    accept]
  exact if_pos hg.2

theorem readSSc_eq {w : Word} {mk : CReg → SReg → Instr} {i : Instr}
    (h : readSSc FieldLayout.r93 w.toNat mk = .instr i) :
    ∃ vc rs, i = mk vc rs ∧ w = packSSc FieldLayout.r93 (FieldLayout.r93.op.get w.toNat)
      (FieldLayout.r93.opx.get w.toNat) (FieldLayout.r93.func.get w.toNat) vc rs := by
  unfold readSSc accept at h
  split_ifs at h with hf
  injection h with h
  have e := eq_packWord (l := FieldLayout.r93) (w := w) (ops :=
    [(FieldLayout.r93.vd, (vregAt FieldLayout.r93.vd w.toNat).val),
     (FieldLayout.r93.rsSrc, (sregAt FieldLayout.r93.rsSrc w.toNat).val)]) hf (by
      intro p hp
      simp only [List.mem_cons, List.not_mem_nil, or_false] at hp
      rcases hp with rfl | rfl
      · exact vregAt_val _ rfl
      · exact sregAt_val _ rfl)
  rw [← packSSc_eq] at e
  exact ⟨_, _, h.symm, e⟩


/-! ### SDv -/

theorem packSDv_eq (l : FieldLayout) (op opx func : Nat) (rd : SReg) (va : VReg) :
    packSDv l op opx func rd va = packWord l op opx func
      [(l.rsDst, rd.val), (l.va, va.val)] := rfl

theorem packSDv_get {op opx func : Nat} (h1 : op < 64) (h2 : opx < 2) (h3 : func < 64)
    (rd : SReg) (va : VReg) :
    (∀ p ∈ packedFields FieldLayout.r93 op opx func
      [(FieldLayout.r93.rsDst, rd.val), (FieldLayout.r93.va, va.val)],
      p.1.get (packSDv FieldLayout.r93 op opx func rd va).toNat = p.2) ∧
    onlyFields FieldLayout.r93
      [FieldLayout.r93.rsDst, FieldLayout.r93.va]
      (packSDv FieldLayout.r93 op opx func rd va).toNat = true :=
  packWord_get (l := FieldLayout.r93) (ops := [(FieldLayout.r93.rsDst, rd.val), (FieldLayout.r93.va, va.val)])
    (by simp [packedFields, apart, FieldLayout.r93])
    (by simp [packedFields, FieldLayout.r93])
    (by simp [packedFields, FieldLayout.r93, h1, h2, h3, rd.isLt, va.isLt])

theorem packSDv_codes {op opx func : Nat} (h1 : op < 64) (h2 : opx < 2) (h3 : func < 64)
    (rd : SReg) (va : VReg) :
    FieldLayout.r93.op.get (packSDv FieldLayout.r93 op opx func rd va).toNat = op ∧
    FieldLayout.r93.opx.get (packSDv FieldLayout.r93 op opx func rd va).toNat = opx ∧
    FieldLayout.r93.func.get (packSDv FieldLayout.r93 op opx func rd va).toNat = func := by
  have hg := (packSDv_get h1 h2 h3 rd va).1
  exact ⟨hg (FieldLayout.r93.op, op) (by simp [packedFields]),
    hg (FieldLayout.r93.opx, opx) (by simp [packedFields]),
    hg (FieldLayout.r93.func, func) (by simp [packedFields])⟩

theorem readSDv_pack {op opx func : Nat} (h1 : op < 64) (h2 : opx < 2) (h3 : func < 64)
    (rd : SReg) (va : VReg) (mk : SReg → VReg → Instr) :
    readSDv FieldLayout.r93 (packSDv FieldLayout.r93 op opx func rd va).toNat mk =
      .instr (mk rd va) := by
  have hg := packSDv_get h1 h2 h3 rd va
  rw [readSDv,
    sregAt_eq (hg.1 (FieldLayout.r93.rsDst, rd.val) (by simp [packedFields])),
    vregAt_eq (hg.1 (FieldLayout.r93.va, va.val) (by simp [packedFields])),
    accept]
  exact if_pos hg.2

theorem readSDv_eq {w : Word} {mk : SReg → VReg → Instr} {i : Instr}
    (h : readSDv FieldLayout.r93 w.toNat mk = .instr i) :
    ∃ rd va, i = mk rd va ∧ w = packSDv FieldLayout.r93 (FieldLayout.r93.op.get w.toNat)
      (FieldLayout.r93.opx.get w.toNat) (FieldLayout.r93.func.get w.toNat) rd va := by
  unfold readSDv accept at h
  split_ifs at h with hf
  injection h with h
  have e := eq_packWord (l := FieldLayout.r93) (w := w) (ops :=
    [(FieldLayout.r93.rsDst, (sregAt FieldLayout.r93.rsDst w.toNat).val),
     (FieldLayout.r93.va, (vregAt FieldLayout.r93.va w.toNat).val)]) hf (by
      intro p hp
      simp only [List.mem_cons, List.not_mem_nil, or_false] at hp
      rcases hp with rfl | rfl
      · exact sregAt_val _ rfl
      · exact vregAt_val _ rfl)
  rw [← packSDv_eq] at e
  exact ⟨_, _, h.symm, e⟩


/-! ### SDf -/

theorem packSDf_eq (l : FieldLayout) (op opx func : Nat) (rd : SReg) (fa : FReg) :
    packSDf l op opx func rd fa = packWord l op opx func
      [(l.rsDst, rd.val), (flagField l.va, fa.val)] := rfl

theorem packSDf_get {op opx func : Nat} (h1 : op < 64) (h2 : opx < 2) (h3 : func < 64)
    (rd : SReg) (fa : FReg) :
    (∀ p ∈ packedFields FieldLayout.r93 op opx func
      [(FieldLayout.r93.rsDst, rd.val), (flagField FieldLayout.r93.va, fa.val)],
      p.1.get (packSDf FieldLayout.r93 op opx func rd fa).toNat = p.2) ∧
    onlyFields FieldLayout.r93
      [FieldLayout.r93.rsDst, flagField FieldLayout.r93.va]
      (packSDf FieldLayout.r93 op opx func rd fa).toNat = true :=
  packWord_get (l := FieldLayout.r93) (ops := [(FieldLayout.r93.rsDst, rd.val), (flagField FieldLayout.r93.va, fa.val)])
    (by simp [packedFields, apart, FieldLayout.r93, flagField])
    (by simp [packedFields, FieldLayout.r93, flagField])
    (by simp [packedFields, FieldLayout.r93, flagField, h1, h2, h3, rd.isLt, fa.isLt])

theorem packSDf_codes {op opx func : Nat} (h1 : op < 64) (h2 : opx < 2) (h3 : func < 64)
    (rd : SReg) (fa : FReg) :
    FieldLayout.r93.op.get (packSDf FieldLayout.r93 op opx func rd fa).toNat = op ∧
    FieldLayout.r93.opx.get (packSDf FieldLayout.r93 op opx func rd fa).toNat = opx ∧
    FieldLayout.r93.func.get (packSDf FieldLayout.r93 op opx func rd fa).toNat = func := by
  have hg := (packSDf_get h1 h2 h3 rd fa).1
  exact ⟨hg (FieldLayout.r93.op, op) (by simp [packedFields]),
    hg (FieldLayout.r93.opx, opx) (by simp [packedFields]),
    hg (FieldLayout.r93.func, func) (by simp [packedFields])⟩

theorem readSDf_pack {op opx func : Nat} (h1 : op < 64) (h2 : opx < 2) (h3 : func < 64)
    (rd : SReg) (fa : FReg) (mk : SReg → FReg → Instr) :
    readSDf FieldLayout.r93 (packSDf FieldLayout.r93 op opx func rd fa).toNat mk =
      .instr (mk rd fa) := by
  have hg := packSDf_get h1 h2 h3 rd fa
  rw [readSDf,
    sregAt_eq (hg.1 (FieldLayout.r93.rsDst, rd.val) (by simp [packedFields])),
    fregAt_eq (hg.1 (flagField FieldLayout.r93.va, fa.val) (by simp [packedFields])),
    accept]
  exact if_pos hg.2

theorem readSDf_eq {w : Word} {mk : SReg → FReg → Instr} {i : Instr}
    (h : readSDf FieldLayout.r93 w.toNat mk = .instr i) :
    ∃ rd fa, i = mk rd fa ∧ w = packSDf FieldLayout.r93 (FieldLayout.r93.op.get w.toNat)
      (FieldLayout.r93.opx.get w.toNat) (FieldLayout.r93.func.get w.toNat) rd fa := by
  unfold readSDf accept at h
  split_ifs at h with hf
  injection h with h
  have e := eq_packWord (l := FieldLayout.r93) (w := w) (ops :=
    [(FieldLayout.r93.rsDst, (sregAt FieldLayout.r93.rsDst w.toNat).val),
     (flagField FieldLayout.r93.va, (fregAt FieldLayout.r93.va w.toNat).val)]) hf (by
      intro p hp
      simp only [List.mem_cons, List.not_mem_nil, or_false] at hp
      rcases hp with rfl | rfl
      · exact sregAt_val _ rfl
      · exact fregAt_val _ _)
  rw [← packSDf_eq] at e
  exact ⟨_, _, h.symm, e⟩


/-! ### SDc -/

theorem packSDc_eq (l : FieldLayout) (op opx func : Nat) (rd : SReg) (wc : CReg) :
    packSDc l op opx func rd wc = packWord l op opx func
      [(l.rsDst, rd.val), (l.va, wc.val)] := rfl

theorem packSDc_get {op opx func : Nat} (h1 : op < 64) (h2 : opx < 2) (h3 : func < 64)
    (rd : SReg) (wc : CReg) :
    (∀ p ∈ packedFields FieldLayout.r93 op opx func
      [(FieldLayout.r93.rsDst, rd.val), (FieldLayout.r93.va, wc.val)],
      p.1.get (packSDc FieldLayout.r93 op opx func rd wc).toNat = p.2) ∧
    onlyFields FieldLayout.r93
      [FieldLayout.r93.rsDst, FieldLayout.r93.va]
      (packSDc FieldLayout.r93 op opx func rd wc).toNat = true :=
  packWord_get (l := FieldLayout.r93) (ops := [(FieldLayout.r93.rsDst, rd.val), (FieldLayout.r93.va, wc.val)])
    (by simp [packedFields, apart, FieldLayout.r93])
    (by simp [packedFields, FieldLayout.r93])
    (by simp [packedFields, FieldLayout.r93, h1, h2, h3, rd.isLt, wc.isLt])

theorem packSDc_codes {op opx func : Nat} (h1 : op < 64) (h2 : opx < 2) (h3 : func < 64)
    (rd : SReg) (wc : CReg) :
    FieldLayout.r93.op.get (packSDc FieldLayout.r93 op opx func rd wc).toNat = op ∧
    FieldLayout.r93.opx.get (packSDc FieldLayout.r93 op opx func rd wc).toNat = opx ∧
    FieldLayout.r93.func.get (packSDc FieldLayout.r93 op opx func rd wc).toNat = func := by
  have hg := (packSDc_get h1 h2 h3 rd wc).1
  exact ⟨hg (FieldLayout.r93.op, op) (by simp [packedFields]),
    hg (FieldLayout.r93.opx, opx) (by simp [packedFields]),
    hg (FieldLayout.r93.func, func) (by simp [packedFields])⟩

theorem readSDc_pack {op opx func : Nat} (h1 : op < 64) (h2 : opx < 2) (h3 : func < 64)
    (rd : SReg) (wc : CReg) (mk : SReg → CReg → Instr) :
    readSDc FieldLayout.r93 (packSDc FieldLayout.r93 op opx func rd wc).toNat mk =
      .instr (mk rd wc) := by
  have hg := packSDc_get h1 h2 h3 rd wc
  rw [readSDc,
    sregAt_eq (hg.1 (FieldLayout.r93.rsDst, rd.val) (by simp [packedFields])),
    vregAt_eq (hg.1 (FieldLayout.r93.va, wc.val) (by simp [packedFields])),
    accept]
  exact if_pos hg.2

theorem readSDc_eq {w : Word} {mk : SReg → CReg → Instr} {i : Instr}
    (h : readSDc FieldLayout.r93 w.toNat mk = .instr i) :
    ∃ rd wc, i = mk rd wc ∧ w = packSDc FieldLayout.r93 (FieldLayout.r93.op.get w.toNat)
      (FieldLayout.r93.opx.get w.toNat) (FieldLayout.r93.func.get w.toNat) rd wc := by
  unfold readSDc accept at h
  split_ifs at h with hf
  injection h with h
  have e := eq_packWord (l := FieldLayout.r93) (w := w) (ops :=
    [(FieldLayout.r93.rsDst, (sregAt FieldLayout.r93.rsDst w.toNat).val),
     (FieldLayout.r93.va, (vregAt FieldLayout.r93.va w.toNat).val)]) hf (by
      intro p hp
      simp only [List.mem_cons, List.not_mem_nil, or_false] at hp
      rcases hp with rfl | rfl
      · exact sregAt_val _ rfl
      · exact vregAt_val _ rfl)
  rw [← packSDc_eq] at e
  exact ⟨_, _, h.symm, e⟩


/-! ### VM -/

theorem packVM_eq (l : FieldLayout) (op opx func : Nat) (m : MaskSel) (vd : VReg) (bb : VBase) (vi : VInc) :
    packVM l op opx func m vd bb vi = packWord l op opx func
      [(l.mask, maskBit m), (l.vd, vd.val), (l.vbase, bb.val), (l.vinc, vi.val)] := rfl

theorem packVM_get {op opx func : Nat} (h1 : op < 64) (h2 : opx < 2) (h3 : func < 64)
    (m : MaskSel) (vd : VReg) (bb : VBase) (vi : VInc) :
    (∀ p ∈ packedFields FieldLayout.r93 op opx func
      [(FieldLayout.r93.mask, maskBit m), (FieldLayout.r93.vd, vd.val), (FieldLayout.r93.vbase, bb.val), (FieldLayout.r93.vinc, vi.val)],
      p.1.get (packVM FieldLayout.r93 op opx func m vd bb vi).toNat = p.2) ∧
    onlyFields FieldLayout.r93
      [FieldLayout.r93.mask, FieldLayout.r93.vd, FieldLayout.r93.vbase, FieldLayout.r93.vinc]
      (packVM FieldLayout.r93 op opx func m vd bb vi).toNat = true :=
  packWord_get (l := FieldLayout.r93) (ops := [(FieldLayout.r93.mask, maskBit m), (FieldLayout.r93.vd, vd.val), (FieldLayout.r93.vbase, bb.val), (FieldLayout.r93.vinc, vi.val)])
    (by simp [packedFields, apart, FieldLayout.r93])
    (by simp [packedFields, FieldLayout.r93])
    (by simp [packedFields, FieldLayout.r93, h1, h2, h3, maskBit_lt m, vd.isLt, bb.isLt, vi.isLt])

theorem packVM_codes {op opx func : Nat} (h1 : op < 64) (h2 : opx < 2) (h3 : func < 64)
    (m : MaskSel) (vd : VReg) (bb : VBase) (vi : VInc) :
    FieldLayout.r93.op.get (packVM FieldLayout.r93 op opx func m vd bb vi).toNat = op ∧
    FieldLayout.r93.opx.get (packVM FieldLayout.r93 op opx func m vd bb vi).toNat = opx ∧
    FieldLayout.r93.func.get (packVM FieldLayout.r93 op opx func m vd bb vi).toNat = func := by
  have hg := (packVM_get h1 h2 h3 m vd bb vi).1
  exact ⟨hg (FieldLayout.r93.op, op) (by simp [packedFields]),
    hg (FieldLayout.r93.opx, opx) (by simp [packedFields]),
    hg (FieldLayout.r93.func, func) (by simp [packedFields])⟩

theorem readVM_pack {op opx func : Nat} (h1 : op < 64) (h2 : opx < 2) (h3 : func < 64)
    (m : MaskSel) (vd : VReg) (bb : VBase) (vi : VInc) (mk : MaskSel → VReg → VBase → VInc → Instr) :
    readVM FieldLayout.r93 (packVM FieldLayout.r93 op opx func m vd bb vi).toNat mk =
      .instr (mk m vd bb vi) := by
  have hg := packVM_get h1 h2 h3 m vd bb vi
  rw [readVM,
    maskAt_eq (hg.1 (FieldLayout.r93.mask, maskBit m) (by simp [packedFields])),
    vregAt_eq (hg.1 (FieldLayout.r93.vd, vd.val) (by simp [packedFields])),
    vbaseAt_eq (hg.1 (FieldLayout.r93.vbase, bb.val) (by simp [packedFields])),
    vincAt_eq (hg.1 (FieldLayout.r93.vinc, vi.val) (by simp [packedFields])),
    accept]
  exact if_pos hg.2

theorem readVM_eq {w : Word} {mk : MaskSel → VReg → VBase → VInc → Instr} {i : Instr}
    (h : readVM FieldLayout.r93 w.toNat mk = .instr i) :
    ∃ m vd bb vi, i = mk m vd bb vi ∧ w = packVM FieldLayout.r93 (FieldLayout.r93.op.get w.toNat)
      (FieldLayout.r93.opx.get w.toNat) (FieldLayout.r93.func.get w.toNat) m vd bb vi := by
  unfold readVM accept at h
  split_ifs at h with hf
  injection h with h
  have e := eq_packWord (l := FieldLayout.r93) (w := w) (ops :=
    [(FieldLayout.r93.mask, maskBit (maskAt FieldLayout.r93 w.toNat)),
     (FieldLayout.r93.vd, (vregAt FieldLayout.r93.vd w.toNat).val),
     (FieldLayout.r93.vbase, (vbaseAt FieldLayout.r93 w.toNat).val),
     (FieldLayout.r93.vinc, (vincAt FieldLayout.r93 w.toNat).val)]) hf (by
      intro p hp
      simp only [List.mem_cons, List.not_mem_nil, or_false] at hp
      rcases hp with rfl | rfl | rfl | rfl
      · exact maskBit_maskAt _ rfl
      · exact vregAt_val _ rfl
      · exact vbaseAt_val _ rfl
      · exact vincAt_val _ rfl)
  rw [← packVM_eq] at e
  exact ⟨_, _, _, _, h.symm, e⟩


/-! ### VMf -/

theorem packVMf_eq (l : FieldLayout) (op opx func : Nat) (fd : FReg) (bb : VBase) (vi : VInc) :
    packVMf l op opx func fd bb vi = packWord l op opx func
      [(flagField l.vd, fd.val), (l.vbase, bb.val), (l.vinc, vi.val)] := rfl

theorem packVMf_get {op opx func : Nat} (h1 : op < 64) (h2 : opx < 2) (h3 : func < 64)
    (fd : FReg) (bb : VBase) (vi : VInc) :
    (∀ p ∈ packedFields FieldLayout.r93 op opx func
      [(flagField FieldLayout.r93.vd, fd.val), (FieldLayout.r93.vbase, bb.val), (FieldLayout.r93.vinc, vi.val)],
      p.1.get (packVMf FieldLayout.r93 op opx func fd bb vi).toNat = p.2) ∧
    onlyFields FieldLayout.r93
      [flagField FieldLayout.r93.vd, FieldLayout.r93.vbase, FieldLayout.r93.vinc]
      (packVMf FieldLayout.r93 op opx func fd bb vi).toNat = true :=
  packWord_get (l := FieldLayout.r93) (ops := [(flagField FieldLayout.r93.vd, fd.val), (FieldLayout.r93.vbase, bb.val), (FieldLayout.r93.vinc, vi.val)])
    (by simp [packedFields, apart, FieldLayout.r93, flagField])
    (by simp [packedFields, FieldLayout.r93, flagField])
    (by simp [packedFields, FieldLayout.r93, flagField, h1, h2, h3, fd.isLt, bb.isLt, vi.isLt])

theorem packVMf_codes {op opx func : Nat} (h1 : op < 64) (h2 : opx < 2) (h3 : func < 64)
    (fd : FReg) (bb : VBase) (vi : VInc) :
    FieldLayout.r93.op.get (packVMf FieldLayout.r93 op opx func fd bb vi).toNat = op ∧
    FieldLayout.r93.opx.get (packVMf FieldLayout.r93 op opx func fd bb vi).toNat = opx ∧
    FieldLayout.r93.func.get (packVMf FieldLayout.r93 op opx func fd bb vi).toNat = func := by
  have hg := (packVMf_get h1 h2 h3 fd bb vi).1
  exact ⟨hg (FieldLayout.r93.op, op) (by simp [packedFields]),
    hg (FieldLayout.r93.opx, opx) (by simp [packedFields]),
    hg (FieldLayout.r93.func, func) (by simp [packedFields])⟩

theorem readVMf_pack {op opx func : Nat} (h1 : op < 64) (h2 : opx < 2) (h3 : func < 64)
    (fd : FReg) (bb : VBase) (vi : VInc) (mk : FReg → VBase → VInc → Instr) :
    readVMf FieldLayout.r93 (packVMf FieldLayout.r93 op opx func fd bb vi).toNat mk =
      .instr (mk fd bb vi) := by
  have hg := packVMf_get h1 h2 h3 fd bb vi
  rw [readVMf,
    fregAt_eq (hg.1 (flagField FieldLayout.r93.vd, fd.val) (by simp [packedFields])),
    vbaseAt_eq (hg.1 (FieldLayout.r93.vbase, bb.val) (by simp [packedFields])),
    vincAt_eq (hg.1 (FieldLayout.r93.vinc, vi.val) (by simp [packedFields])),
    accept]
  exact if_pos hg.2

theorem readVMf_eq {w : Word} {mk : FReg → VBase → VInc → Instr} {i : Instr}
    (h : readVMf FieldLayout.r93 w.toNat mk = .instr i) :
    ∃ fd bb vi, i = mk fd bb vi ∧ w = packVMf FieldLayout.r93 (FieldLayout.r93.op.get w.toNat)
      (FieldLayout.r93.opx.get w.toNat) (FieldLayout.r93.func.get w.toNat) fd bb vi := by
  unfold readVMf accept at h
  split_ifs at h with hf
  injection h with h
  have e := eq_packWord (l := FieldLayout.r93) (w := w) (ops :=
    [(flagField FieldLayout.r93.vd, (fregAt FieldLayout.r93.vd w.toNat).val),
     (FieldLayout.r93.vbase, (vbaseAt FieldLayout.r93 w.toNat).val),
     (FieldLayout.r93.vinc, (vincAt FieldLayout.r93 w.toNat).val)]) hf (by
      intro p hp
      simp only [List.mem_cons, List.not_mem_nil, or_false] at hp
      rcases hp with rfl | rfl | rfl
      · exact fregAt_val _ _
      · exact vbaseAt_val _ rfl
      · exact vincAt_val _ rfl)
  rw [← packVMf_eq] at e
  exact ⟨_, _, _, h.symm, e⟩


/-! ### VMS -/

theorem packVMS_eq (l : FieldLayout) (op opx func : Nat) (m : MaskSel) (vd : VReg) (bb : VBase) (vs : VStride) (vi : VInc) :
    packVMS l op opx func m vd bb vs vi = packWord l op opx func
      [(l.mask, maskBit m), (l.vd, vd.val), (l.vbase, bb.val), (l.vstride, vs.val), (l.vinc, vi.val)] := rfl

theorem packVMS_get {op opx func : Nat} (h1 : op < 64) (h2 : opx < 2) (h3 : func < 64)
    (m : MaskSel) (vd : VReg) (bb : VBase) (vs : VStride) (vi : VInc) :
    (∀ p ∈ packedFields FieldLayout.r93 op opx func
      [(FieldLayout.r93.mask, maskBit m), (FieldLayout.r93.vd, vd.val), (FieldLayout.r93.vbase, bb.val), (FieldLayout.r93.vstride, vs.val), (FieldLayout.r93.vinc, vi.val)],
      p.1.get (packVMS FieldLayout.r93 op opx func m vd bb vs vi).toNat = p.2) ∧
    onlyFields FieldLayout.r93
      [FieldLayout.r93.mask, FieldLayout.r93.vd, FieldLayout.r93.vbase, FieldLayout.r93.vstride, FieldLayout.r93.vinc]
      (packVMS FieldLayout.r93 op opx func m vd bb vs vi).toNat = true :=
  packWord_get (l := FieldLayout.r93) (ops := [(FieldLayout.r93.mask, maskBit m), (FieldLayout.r93.vd, vd.val), (FieldLayout.r93.vbase, bb.val), (FieldLayout.r93.vstride, vs.val), (FieldLayout.r93.vinc, vi.val)])
    (by simp [packedFields, apart, FieldLayout.r93])
    (by simp [packedFields, FieldLayout.r93])
    (by simp [packedFields, FieldLayout.r93, h1, h2, h3, maskBit_lt m, vd.isLt, bb.isLt, vs.isLt, vi.isLt])

theorem packVMS_codes {op opx func : Nat} (h1 : op < 64) (h2 : opx < 2) (h3 : func < 64)
    (m : MaskSel) (vd : VReg) (bb : VBase) (vs : VStride) (vi : VInc) :
    FieldLayout.r93.op.get (packVMS FieldLayout.r93 op opx func m vd bb vs vi).toNat = op ∧
    FieldLayout.r93.opx.get (packVMS FieldLayout.r93 op opx func m vd bb vs vi).toNat = opx ∧
    FieldLayout.r93.func.get (packVMS FieldLayout.r93 op opx func m vd bb vs vi).toNat = func := by
  have hg := (packVMS_get h1 h2 h3 m vd bb vs vi).1
  exact ⟨hg (FieldLayout.r93.op, op) (by simp [packedFields]),
    hg (FieldLayout.r93.opx, opx) (by simp [packedFields]),
    hg (FieldLayout.r93.func, func) (by simp [packedFields])⟩

theorem readVMS_pack {op opx func : Nat} (h1 : op < 64) (h2 : opx < 2) (h3 : func < 64)
    (m : MaskSel) (vd : VReg) (bb : VBase) (vs : VStride) (vi : VInc) (mk : MaskSel → VReg → VBase → VStride → VInc → Instr) :
    readVMS FieldLayout.r93 (packVMS FieldLayout.r93 op opx func m vd bb vs vi).toNat mk =
      .instr (mk m vd bb vs vi) := by
  have hg := packVMS_get h1 h2 h3 m vd bb vs vi
  rw [readVMS,
    maskAt_eq (hg.1 (FieldLayout.r93.mask, maskBit m) (by simp [packedFields])),
    vregAt_eq (hg.1 (FieldLayout.r93.vd, vd.val) (by simp [packedFields])),
    vbaseAt_eq (hg.1 (FieldLayout.r93.vbase, bb.val) (by simp [packedFields])),
    vstrideAt_eq (hg.1 (FieldLayout.r93.vstride, vs.val) (by simp [packedFields])),
    vincAt_eq (hg.1 (FieldLayout.r93.vinc, vi.val) (by simp [packedFields])),
    accept]
  exact if_pos hg.2

theorem readVMS_eq {w : Word} {mk : MaskSel → VReg → VBase → VStride → VInc → Instr} {i : Instr}
    (h : readVMS FieldLayout.r93 w.toNat mk = .instr i) :
    ∃ m vd bb vs vi, i = mk m vd bb vs vi ∧ w = packVMS FieldLayout.r93 (FieldLayout.r93.op.get w.toNat)
      (FieldLayout.r93.opx.get w.toNat) (FieldLayout.r93.func.get w.toNat) m vd bb vs vi := by
  unfold readVMS accept at h
  split_ifs at h with hf
  injection h with h
  have e := eq_packWord (l := FieldLayout.r93) (w := w) (ops :=
    [(FieldLayout.r93.mask, maskBit (maskAt FieldLayout.r93 w.toNat)),
     (FieldLayout.r93.vd, (vregAt FieldLayout.r93.vd w.toNat).val),
     (FieldLayout.r93.vbase, (vbaseAt FieldLayout.r93 w.toNat).val),
     (FieldLayout.r93.vstride, (vstrideAt FieldLayout.r93 w.toNat).val),
     (FieldLayout.r93.vinc, (vincAt FieldLayout.r93 w.toNat).val)]) hf (by
      intro p hp
      simp only [List.mem_cons, List.not_mem_nil, or_false] at hp
      rcases hp with rfl | rfl | rfl | rfl | rfl
      · exact maskBit_maskAt _ rfl
      · exact vregAt_val _ rfl
      · exact vbaseAt_val _ rfl
      · exact vstrideAt_val _ rfl
      · exact vincAt_val _ rfl)
  rw [← packVMS_eq] at e
  exact ⟨_, _, _, _, _, h.symm, e⟩


/-! ### VMX -/

theorem packVMX_eq (l : FieldLayout) (op opx func : Nat) (m : MaskSel) (vd : VReg) (vo : VReg) (bb : VBase) :
    packVMX l op opx func m vd vo bb = packWord l op opx func
      [(l.mask, maskBit m), (l.vd, vd.val), (l.voff, vo.val), (l.vbase, bb.val)] := rfl

theorem packVMX_get {op opx func : Nat} (h1 : op < 64) (h2 : opx < 2) (h3 : func < 64)
    (m : MaskSel) (vd : VReg) (vo : VReg) (bb : VBase) :
    (∀ p ∈ packedFields FieldLayout.r93 op opx func
      [(FieldLayout.r93.mask, maskBit m), (FieldLayout.r93.vd, vd.val), (FieldLayout.r93.voff, vo.val), (FieldLayout.r93.vbase, bb.val)],
      p.1.get (packVMX FieldLayout.r93 op opx func m vd vo bb).toNat = p.2) ∧
    onlyFields FieldLayout.r93
      [FieldLayout.r93.mask, FieldLayout.r93.vd, FieldLayout.r93.voff, FieldLayout.r93.vbase]
      (packVMX FieldLayout.r93 op opx func m vd vo bb).toNat = true :=
  packWord_get (l := FieldLayout.r93) (ops := [(FieldLayout.r93.mask, maskBit m), (FieldLayout.r93.vd, vd.val), (FieldLayout.r93.voff, vo.val), (FieldLayout.r93.vbase, bb.val)])
    (by simp [packedFields, apart, FieldLayout.r93])
    (by simp [packedFields, FieldLayout.r93])
    (by simp [packedFields, FieldLayout.r93, h1, h2, h3, maskBit_lt m, vd.isLt, vo.isLt, bb.isLt])

theorem packVMX_codes {op opx func : Nat} (h1 : op < 64) (h2 : opx < 2) (h3 : func < 64)
    (m : MaskSel) (vd : VReg) (vo : VReg) (bb : VBase) :
    FieldLayout.r93.op.get (packVMX FieldLayout.r93 op opx func m vd vo bb).toNat = op ∧
    FieldLayout.r93.opx.get (packVMX FieldLayout.r93 op opx func m vd vo bb).toNat = opx ∧
    FieldLayout.r93.func.get (packVMX FieldLayout.r93 op opx func m vd vo bb).toNat = func := by
  have hg := (packVMX_get h1 h2 h3 m vd vo bb).1
  exact ⟨hg (FieldLayout.r93.op, op) (by simp [packedFields]),
    hg (FieldLayout.r93.opx, opx) (by simp [packedFields]),
    hg (FieldLayout.r93.func, func) (by simp [packedFields])⟩

theorem readVMX_pack {op opx func : Nat} (h1 : op < 64) (h2 : opx < 2) (h3 : func < 64)
    (m : MaskSel) (vd : VReg) (vo : VReg) (bb : VBase) (mk : MaskSel → VReg → VReg → VBase → Instr) :
    readVMX FieldLayout.r93 (packVMX FieldLayout.r93 op opx func m vd vo bb).toNat mk =
      .instr (mk m vd vo bb) := by
  have hg := packVMX_get h1 h2 h3 m vd vo bb
  rw [readVMX,
    maskAt_eq (hg.1 (FieldLayout.r93.mask, maskBit m) (by simp [packedFields])),
    vregAt_eq (hg.1 (FieldLayout.r93.vd, vd.val) (by simp [packedFields])),
    vregAt_eq (hg.1 (FieldLayout.r93.voff, vo.val) (by simp [packedFields])),
    vbaseAt_eq (hg.1 (FieldLayout.r93.vbase, bb.val) (by simp [packedFields])),
    accept]
  exact if_pos hg.2

theorem readVMX_eq {w : Word} {mk : MaskSel → VReg → VReg → VBase → Instr} {i : Instr}
    (h : readVMX FieldLayout.r93 w.toNat mk = .instr i) :
    ∃ m vd vo bb, i = mk m vd vo bb ∧ w = packVMX FieldLayout.r93 (FieldLayout.r93.op.get w.toNat)
      (FieldLayout.r93.opx.get w.toNat) (FieldLayout.r93.func.get w.toNat) m vd vo bb := by
  unfold readVMX accept at h
  split_ifs at h with hf
  injection h with h
  have e := eq_packWord (l := FieldLayout.r93) (w := w) (ops :=
    [(FieldLayout.r93.mask, maskBit (maskAt FieldLayout.r93 w.toNat)),
     (FieldLayout.r93.vd, (vregAt FieldLayout.r93.vd w.toNat).val),
     (FieldLayout.r93.voff, (vregAt FieldLayout.r93.voff w.toNat).val),
     (FieldLayout.r93.vbase, (vbaseAt FieldLayout.r93 w.toNat).val)]) hf (by
      intro p hp
      simp only [List.mem_cons, List.not_mem_nil, or_false] at hp
      rcases hp with rfl | rfl | rfl | rfl
      · exact maskBit_maskAt _ rfl
      · exact vregAt_val _ rfl
      · exact vregAt_val _ rfl
      · exact vbaseAt_val _ rfl)
  rw [← packVMX_eq] at e
  exact ⟨_, _, _, _, h.symm, e⟩

/-! ### The table a word is looked up in -/

/-- The codes of a word under the default layout (R94). -/
def hasCodes (w op opx func : Nat) : Prop :=
  FieldLayout.r93.op.get w = op ∧ FieldLayout.r93.opx.get w = opx ∧ FieldLayout.r93.func.get w = func

theorem decodeNat_vectorRegister {c : Config} (hl : c.layout = FieldLayout.r93) {w func : Nat}
    (h : hasCodes w 0x3D 0 func) : decodeNat c w = decodeVectorRegister c w func := by
  unfold decodeNat
  rw [hl, h.1, h.2.1, h.2.2]
  rfl

theorem decodeNat_scalarVector {c : Config} (hl : c.layout = FieldLayout.r93) {w func : Nat}
    (h : hasCodes w 0x3D 1 func) : decodeNat c w = decodeScalarVector c w func := by
  unfold decodeNat
  rw [hl, h.1, h.2.1, h.2.2]
  rfl

theorem decodeNat_fixedPoint {c : Config} (hl : c.layout = FieldLayout.r93) {w func : Nat}
    (h : hasCodes w 0x3E 0 func) : decodeNat c w = decodeFixedPoint c w func := by
  unfold decodeNat
  rw [hl, h.1, h.2.1, h.2.2]
  rfl

theorem decodeNat_flagMisc {c : Config} (hl : c.layout = FieldLayout.r93) {w func : Nat}
    (h : hasCodes w 0x3E 1 func) : decodeNat c w = decodeFlagMisc c w func := by
  unfold decodeNat
  rw [hl, h.1, h.2.1, h.2.2]
  rfl

theorem decodeNat_memory {c : Config} (hl : c.layout = FieldLayout.r93) {w func : Nat}
    (h : hasCodes w 0x3F 0 func) : decodeNat c w = decodeMemory c w func := by
  unfold decodeNat
  rw [hl, h.1, h.2.1, h.2.2]
  rfl

theorem decodeNat_memoryScalar {c : Config} (hl : c.layout = FieldLayout.r93) {w func : Nat}
    (h : hasCodes w 0x3F 1 func) : decodeNat c w = decodeMemoryScalar c w func := by
  unfold decodeNat
  rw [hl, h.1, h.2.1, h.2.2]
  rfl

end Sys2Proof
end

