-- ==== Sys2Proof/Laws/PerInstr.lean ====
section
/-! SUPPORT. The statements made of every instruction as syntax, one lemma for each constructor. -/

namespace Sys2Proof.Laws

/-- A well-formed instruction has a word under every layout, and its word under the default layout has
one of the three vector opcodes 0x3D, 0x3E, 0x3F (R92), so that it is no instruction of the scalar
core. -/
def EncodedCell.Statement (i : Instr) : Prop :=
  (∀ c l, i.wellFormed c = true → (encode l i).isSome = true) ∧
  ∀ w, encode FieldLayout.r93 i = some w → 0x3D ≤ FieldLayout.r93.op.get w.toNat

theorem EncodedCell.vaddVV (m : MaskSel) (vd va vb : VReg) : EncodedCell.Statement (.vaddVV m vd va vb) :=
  ⟨fun _ _ _ => rfl, fun _ h => Option.some.inj h ▸
    le_of_le_of_eq (by decide) (packVRvvv_codes (by decide) (by decide) (by decide) ..).1.symm⟩

theorem EncodedCell.vsubVV (m : MaskSel) (vd va vb : VReg) : EncodedCell.Statement (.vsubVV m vd va vb) :=
  ⟨fun _ _ _ => rfl, fun _ h => Option.some.inj h ▸
    le_of_le_of_eq (by decide) (packVRvvv_codes (by decide) (by decide) (by decide) ..).1.symm⟩

theorem EncodedCell.vmacVV (m : MaskSel) (va vb : VReg) : EncodedCell.Statement (.vmacVV m va vb) :=
  ⟨fun _ _ _ => rfl, fun _ h => Option.some.inj h ▸
    le_of_le_of_eq (by decide) (packVRab_codes (by decide) (by decide) (by decide) ..).1.symm⟩

theorem EncodedCell.vandVV (m : MaskSel) (vd va vb : VReg) : EncodedCell.Statement (.vandVV m vd va vb) :=
  ⟨fun _ _ _ => rfl, fun _ h => Option.some.inj h ▸
    le_of_le_of_eq (by decide) (packVRvvv_codes (by decide) (by decide) (by decide) ..).1.symm⟩

theorem EncodedCell.vorVV (m : MaskSel) (vd va vb : VReg) : EncodedCell.Statement (.vorVV m vd va vb) :=
  ⟨fun _ _ _ => rfl, fun _ h => Option.some.inj h ▸
    le_of_le_of_eq (by decide) (packVRvvv_codes (by decide) (by decide) (by decide) ..).1.symm⟩

theorem EncodedCell.vxorVV (m : MaskSel) (vd va vb : VReg) : EncodedCell.Statement (.vxorVV m vd va vb) :=
  ⟨fun _ _ _ => rfl, fun _ h => Option.some.inj h ▸
    le_of_le_of_eq (by decide) (packVRvvv_codes (by decide) (by decide) (by decide) ..).1.symm⟩

theorem EncodedCell.vadduVV (m : MaskSel) (vd va vb : VReg) : EncodedCell.Statement (.vadduVV m vd va vb) :=
  ⟨fun _ _ _ => rfl, fun _ h => Option.some.inj h ▸
    le_of_le_of_eq (by decide) (packVRvvv_codes (by decide) (by decide) (by decide) ..).1.symm⟩

theorem EncodedCell.vsubuVV (m : MaskSel) (vd va vb : VReg) : EncodedCell.Statement (.vsubuVV m vd va vb) :=
  ⟨fun _ _ _ => rfl, fun _ h => Option.some.inj h ▸
    le_of_le_of_eq (by decide) (packVRvvv_codes (by decide) (by decide) (by decide) ..).1.symm⟩

theorem EncodedCell.vmacuVV (m : MaskSel) (va vb : VReg) : EncodedCell.Statement (.vmacuVV m va vb) :=
  ⟨fun _ _ _ => rfl, fun _ h => Option.some.inj h ▸
    le_of_le_of_eq (by decide) (packVRab_codes (by decide) (by decide) (by decide) ..).1.symm⟩

theorem EncodedCell.vabsdiffVV (m : MaskSel) (vd va vb : VReg) : EncodedCell.Statement (.vabsdiffVV m vd va vb) :=
  ⟨fun _ _ _ => rfl, fun _ h => Option.some.inj h ▸
    le_of_le_of_eq (by decide) (packVRvvv_codes (by decide) (by decide) (by decide) ..).1.symm⟩

theorem EncodedCell.vsraVV (m : MaskSel) (vd va vb : VReg) : EncodedCell.Statement (.vsraVV m vd va vb) :=
  ⟨fun _ _ _ => rfl, fun _ h => Option.some.inj h ▸
    le_of_le_of_eq (by decide) (packVRvvv_codes (by decide) (by decide) (by decide) ..).1.symm⟩

theorem EncodedCell.vcmpeqVV (m : MaskSel) (fd : FReg) (va vb : VReg) : EncodedCell.Statement (.vcmpeqVV m fd va vb) :=
  ⟨fun _ _ _ => rfl, fun _ h => Option.some.inj h ▸
    le_of_le_of_eq (by decide) (packVRfvv_codes (by decide) (by decide) (by decide) ..).1.symm⟩

theorem EncodedCell.vsllVV (m : MaskSel) (vd va vb : VReg) : EncodedCell.Statement (.vsllVV m vd va vb) :=
  ⟨fun _ _ _ => rfl, fun _ h => Option.some.inj h ▸
    le_of_le_of_eq (by decide) (packVRvvv_codes (by decide) (by decide) (by decide) ..).1.symm⟩

theorem EncodedCell.vsrlVV (m : MaskSel) (vd va vb : VReg) : EncodedCell.Statement (.vsrlVV m vd va vb) :=
  ⟨fun _ _ _ => rfl, fun _ h => Option.some.inj h ▸
    le_of_le_of_eq (by decide) (packVRvvv_codes (by decide) (by decide) (by decide) ..).1.symm⟩

theorem EncodedCell.vrotVV (m : MaskSel) (vd va vb : VReg) : EncodedCell.Statement (.vrotVV m vd va vb) :=
  ⟨fun _ _ _ => rfl, fun _ h => Option.some.inj h ▸
    le_of_le_of_eq (by decide) (packVRvvv_codes (by decide) (by decide) (by decide) ..).1.symm⟩

theorem EncodedCell.vcmpltVV (m : MaskSel) (fd : FReg) (va vb : VReg) : EncodedCell.Statement (.vcmpltVV m fd va vb) :=
  ⟨fun _ _ _ => rfl, fun _ h => Option.some.inj h ▸
    le_of_le_of_eq (by decide) (packVRfvv_codes (by decide) (by decide) (by decide) ..).1.symm⟩

theorem EncodedCell.vdivVV (m : MaskSel) (vd va vb : VReg) : EncodedCell.Statement (.vdivVV m vd va vb) :=
  ⟨fun _ _ _ => rfl, fun _ h => Option.some.inj h ▸
    le_of_le_of_eq (by decide) (packVRvvv_codes (by decide) (by decide) (by decide) ..).1.symm⟩

theorem EncodedCell.vcmpleVV (m : MaskSel) (fd : FReg) (va vb : VReg) : EncodedCell.Statement (.vcmpleVV m fd va vb) :=
  ⟨fun _ _ _ => rfl, fun _ h => Option.some.inj h ▸
    le_of_le_of_eq (by decide) (packVRfvv_codes (by decide) (by decide) (by decide) ..).1.symm⟩

theorem EncodedCell.vmergeVV (m : MaskSel) (vd va vb : VReg) : EncodedCell.Statement (.vmergeVV m vd va vb) :=
  ⟨fun _ _ _ => rfl, fun _ h => Option.some.inj h ▸
    le_of_le_of_eq (by decide) (packVRvvv_codes (by decide) (by decide) (by decide) ..).1.symm⟩

theorem EncodedCell.vcmpneqVV (m : MaskSel) (fd : FReg) (va vb : VReg) : EncodedCell.Statement (.vcmpneqVV m fd va vb) :=
  ⟨fun _ _ _ => rfl, fun _ h => Option.some.inj h ▸
    le_of_le_of_eq (by decide) (packVRfvv_codes (by decide) (by decide) (by decide) ..).1.symm⟩

theorem EncodedCell.vcmpltuVV (m : MaskSel) (fd : FReg) (va vb : VReg) : EncodedCell.Statement (.vcmpltuVV m fd va vb) :=
  ⟨fun _ _ _ => rfl, fun _ h => Option.some.inj h ▸
    le_of_le_of_eq (by decide) (packVRfvv_codes (by decide) (by decide) (by decide) ..).1.symm⟩

theorem EncodedCell.vdivuVV (m : MaskSel) (vd va vb : VReg) : EncodedCell.Statement (.vdivuVV m vd va vb) :=
  ⟨fun _ _ _ => rfl, fun _ h => Option.some.inj h ▸
    le_of_le_of_eq (by decide) (packVRvvv_codes (by decide) (by decide) (by decide) ..).1.symm⟩

theorem EncodedCell.vcmpleuVV (m : MaskSel) (fd : FReg) (va vb : VReg) : EncodedCell.Statement (.vcmpleuVV m fd va vb) :=
  ⟨fun _ _ _ => rfl, fun _ h => Option.some.inj h ▸
    le_of_le_of_eq (by decide) (packVRfvv_codes (by decide) (by decide) (by decide) ..).1.symm⟩

theorem EncodedCell.vmaxVV (m : MaskSel) (vd va vb : VReg) : EncodedCell.Statement (.vmaxVV m vd va vb) :=
  ⟨fun _ _ _ => rfl, fun _ h => Option.some.inj h ▸
    le_of_le_of_eq (by decide) (packVRvvv_codes (by decide) (by decide) (by decide) ..).1.symm⟩

theorem EncodedCell.vextVV (vd va : VReg) : EncodedCell.Statement (.vextVV vd va) :=
  ⟨fun _ _ _ => rfl, fun _ h => Option.some.inj h ▸
    le_of_le_of_eq (by decide) (packVRda_codes (by decide) (by decide) (by decide) ..).1.symm⟩

theorem EncodedCell.vinsVV (vd va : VReg) : EncodedCell.Statement (.vinsVV vd va) :=
  ⟨fun _ _ _ => rfl, fun _ h => Option.some.inj h ▸
    le_of_le_of_eq (by decide) (packVRda_codes (by decide) (by decide) (by decide) ..).1.symm⟩

theorem EncodedCell.vminVV (m : MaskSel) (vd va vb : VReg) : EncodedCell.Statement (.vminVV m vd va vb) :=
  ⟨fun _ _ _ => rfl, fun _ h => Option.some.inj h ▸
    le_of_le_of_eq (by decide) (packVRvvv_codes (by decide) (by decide) (by decide) ..).1.symm⟩

theorem EncodedCell.vmulhiVV (m : MaskSel) (vd va vb : VReg) : EncodedCell.Statement (.vmulhiVV m vd va vb) :=
  ⟨fun _ _ _ => rfl, fun _ h => Option.some.inj h ▸
    le_of_le_of_eq (by decide) (packVRvvv_codes (by decide) (by decide) (by decide) ..).1.symm⟩

theorem EncodedCell.vmulloVV (m : MaskSel) (vd va vb : VReg) : EncodedCell.Statement (.vmulloVV m vd va vb) :=
  ⟨fun _ _ _ => rfl, fun _ h => Option.some.inj h ▸
    le_of_le_of_eq (by decide) (packVRvvv_codes (by decide) (by decide) (by decide) ..).1.symm⟩

theorem EncodedCell.vmaxuVV (m : MaskSel) (vd va vb : VReg) : EncodedCell.Statement (.vmaxuVV m vd va vb) :=
  ⟨fun _ _ _ => rfl, fun _ h => Option.some.inj h ▸
    le_of_le_of_eq (by decide) (packVRvvv_codes (by decide) (by decide) (by decide) ..).1.symm⟩

theorem EncodedCell.vminuVV (m : MaskSel) (vd va vb : VReg) : EncodedCell.Statement (.vminuVV m vd va vb) :=
  ⟨fun _ _ _ => rfl, fun _ h => Option.some.inj h ▸
    le_of_le_of_eq (by decide) (packVRvvv_codes (by decide) (by decide) (by decide) ..).1.symm⟩

theorem EncodedCell.vmulhiuVV (m : MaskSel) (vd va vb : VReg) : EncodedCell.Statement (.vmulhiuVV m vd va vb) :=
  ⟨fun _ _ _ => rfl, fun _ h => Option.some.inj h ▸
    le_of_le_of_eq (by decide) (packVRvvv_codes (by decide) (by decide) (by decide) ..).1.symm⟩

theorem EncodedCell.vmullouVV (m : MaskSel) (vd va vb : VReg) : EncodedCell.Statement (.vmullouVV m vd va vb) :=
  ⟨fun _ _ _ => rfl, fun _ h => Option.some.inj h ▸
    le_of_le_of_eq (by decide) (packVRvvv_codes (by decide) (by decide) (by decide) ..).1.symm⟩

theorem EncodedCell.vccacc (vd : VReg) : EncodedCell.Statement (.vccacc vd) :=
  ⟨fun _ _ _ => rfl, fun _ h => Option.some.inj h ▸
    le_of_le_of_eq (by decide) (packVRd_codes (by decide) (by decide) (by decide) ..).1.symm⟩

theorem EncodedCell.vupshift (vd va : VReg) : EncodedCell.Statement (.vupshift vd va) :=
  ⟨fun _ _ _ => rfl, fun _ h => Option.some.inj h ▸
    le_of_le_of_eq (by decide) (packVRda_codes (by decide) (by decide) (by decide) ..).1.symm⟩

theorem EncodedCell.vcomp (m : MaskSel) (vd va : VReg) : EncodedCell.Statement (.vcomp m vd va) :=
  ⟨fun _ _ _ => rfl, fun _ h => Option.some.inj h ▸
    le_of_le_of_eq (by decide) (packVRmda_codes (by decide) (by decide) (by decide) ..).1.symm⟩

theorem EncodedCell.vexpand (m : MaskSel) (vd va : VReg) : EncodedCell.Statement (.vexpand m vd va) :=
  ⟨fun _ _ _ => rfl, fun _ h => Option.some.inj h ▸
    le_of_le_of_eq (by decide) (packVRmda_codes (by decide) (by decide) (by decide) ..).1.symm⟩

theorem EncodedCell.vabsVV (m : MaskSel) (vd va : VReg) : EncodedCell.Statement (.vabsVV m vd va) :=
  ⟨fun _ _ _ => rfl, fun _ h => Option.some.inj h ▸
    le_of_le_of_eq (by decide) (packVRmda_codes (by decide) (by decide) (by decide) ..).1.symm⟩

theorem EncodedCell.vcczacc (vd : VReg) : EncodedCell.Statement (.vcczacc vd) :=
  ⟨fun _ _ _ => rfl, fun _ h => Option.some.inj h ▸
    le_of_le_of_eq (by decide) (packVRd_codes (by decide) (by decide) (by decide) ..).1.symm⟩

theorem EncodedCell.vaddVS (m : MaskSel) (vd va : VReg) (rs : SReg) : EncodedCell.Statement (.vaddVS m vd va rs) :=
  ⟨fun _ _ _ => rfl, fun _ h => Option.some.inj h ▸
    le_of_le_of_eq (by decide) (packSSvs_codes (by decide) (by decide) (by decide) ..).1.symm⟩

theorem EncodedCell.vsubVS (m : MaskSel) (vd va : VReg) (rs : SReg) : EncodedCell.Statement (.vsubVS m vd va rs) :=
  ⟨fun _ _ _ => rfl, fun _ h => Option.some.inj h ▸
    le_of_le_of_eq (by decide) (packSSvs_codes (by decide) (by decide) (by decide) ..).1.symm⟩

theorem EncodedCell.vmacVS (m : MaskSel) (va : VReg) (rs : SReg) : EncodedCell.Statement (.vmacVS m va rs) :=
  ⟨fun _ _ _ => rfl, fun _ h => Option.some.inj h ▸
    le_of_le_of_eq (by decide) (packSSa_codes (by decide) (by decide) (by decide) ..).1.symm⟩

theorem EncodedCell.vandVS (m : MaskSel) (vd va : VReg) (rs : SReg) : EncodedCell.Statement (.vandVS m vd va rs) :=
  ⟨fun _ _ _ => rfl, fun _ h => Option.some.inj h ▸
    le_of_le_of_eq (by decide) (packSSvs_codes (by decide) (by decide) (by decide) ..).1.symm⟩

theorem EncodedCell.vorVS (m : MaskSel) (vd va : VReg) (rs : SReg) : EncodedCell.Statement (.vorVS m vd va rs) :=
  ⟨fun _ _ _ => rfl, fun _ h => Option.some.inj h ▸
    le_of_le_of_eq (by decide) (packSSvs_codes (by decide) (by decide) (by decide) ..).1.symm⟩

theorem EncodedCell.vxorVS (m : MaskSel) (vd va : VReg) (rs : SReg) : EncodedCell.Statement (.vxorVS m vd va rs) :=
  ⟨fun _ _ _ => rfl, fun _ h => Option.some.inj h ▸
    le_of_le_of_eq (by decide) (packSSvs_codes (by decide) (by decide) (by decide) ..).1.symm⟩

theorem EncodedCell.vadduVS (m : MaskSel) (vd va : VReg) (rs : SReg) : EncodedCell.Statement (.vadduVS m vd va rs) :=
  ⟨fun _ _ _ => rfl, fun _ h => Option.some.inj h ▸
    le_of_le_of_eq (by decide) (packSSvs_codes (by decide) (by decide) (by decide) ..).1.symm⟩

theorem EncodedCell.vsubuVS (m : MaskSel) (vd va : VReg) (rs : SReg) : EncodedCell.Statement (.vsubuVS m vd va rs) :=
  ⟨fun _ _ _ => rfl, fun _ h => Option.some.inj h ▸
    le_of_le_of_eq (by decide) (packSSvs_codes (by decide) (by decide) (by decide) ..).1.symm⟩

theorem EncodedCell.vmacuVS (m : MaskSel) (va : VReg) (rs : SReg) : EncodedCell.Statement (.vmacuVS m va rs) :=
  ⟨fun _ _ _ => rfl, fun _ h => Option.some.inj h ▸
    le_of_le_of_eq (by decide) (packSSa_codes (by decide) (by decide) (by decide) ..).1.symm⟩

theorem EncodedCell.vabsdiffVS (m : MaskSel) (vd va : VReg) (rs : SReg) : EncodedCell.Statement (.vabsdiffVS m vd va rs) :=
  ⟨fun _ _ _ => rfl, fun _ h => Option.some.inj h ▸
    le_of_le_of_eq (by decide) (packSSvs_codes (by decide) (by decide) (by decide) ..).1.symm⟩

theorem EncodedCell.vsraVS (m : MaskSel) (vd va : VReg) (rs : SReg) : EncodedCell.Statement (.vsraVS m vd va rs) :=
  ⟨fun _ _ _ => rfl, fun _ h => Option.some.inj h ▸
    le_of_le_of_eq (by decide) (packSSvs_codes (by decide) (by decide) (by decide) ..).1.symm⟩

theorem EncodedCell.vcmpeqVS (m : MaskSel) (fd : FReg) (va : VReg) (rs : SReg) : EncodedCell.Statement (.vcmpeqVS m fd va rs) :=
  ⟨fun _ _ _ => rfl, fun _ h => Option.some.inj h ▸
    le_of_le_of_eq (by decide) (packSSfvs_codes (by decide) (by decide) (by decide) ..).1.symm⟩

theorem EncodedCell.vsllVS (m : MaskSel) (vd va : VReg) (rs : SReg) : EncodedCell.Statement (.vsllVS m vd va rs) :=
  ⟨fun _ _ _ => rfl, fun _ h => Option.some.inj h ▸
    le_of_le_of_eq (by decide) (packSSvs_codes (by decide) (by decide) (by decide) ..).1.symm⟩

theorem EncodedCell.vsrlVS (m : MaskSel) (vd va : VReg) (rs : SReg) : EncodedCell.Statement (.vsrlVS m vd va rs) :=
  ⟨fun _ _ _ => rfl, fun _ h => Option.some.inj h ▸
    le_of_le_of_eq (by decide) (packSSvs_codes (by decide) (by decide) (by decide) ..).1.symm⟩

theorem EncodedCell.vrotVS (m : MaskSel) (vd va : VReg) (rs : SReg) : EncodedCell.Statement (.vrotVS m vd va rs) :=
  ⟨fun _ _ _ => rfl, fun _ h => Option.some.inj h ▸
    le_of_le_of_eq (by decide) (packSSvs_codes (by decide) (by decide) (by decide) ..).1.symm⟩

theorem EncodedCell.vcmpltVS (m : MaskSel) (fd : FReg) (va : VReg) (rs : SReg) : EncodedCell.Statement (.vcmpltVS m fd va rs) :=
  ⟨fun _ _ _ => rfl, fun _ h => Option.some.inj h ▸
    le_of_le_of_eq (by decide) (packSSfvs_codes (by decide) (by decide) (by decide) ..).1.symm⟩

theorem EncodedCell.vdivVS (m : MaskSel) (vd va : VReg) (rs : SReg) : EncodedCell.Statement (.vdivVS m vd va rs) :=
  ⟨fun _ _ _ => rfl, fun _ h => Option.some.inj h ▸
    le_of_le_of_eq (by decide) (packSSvs_codes (by decide) (by decide) (by decide) ..).1.symm⟩

theorem EncodedCell.vcmpleVS (m : MaskSel) (fd : FReg) (va : VReg) (rs : SReg) : EncodedCell.Statement (.vcmpleVS m fd va rs) :=
  ⟨fun _ _ _ => rfl, fun _ h => Option.some.inj h ▸
    le_of_le_of_eq (by decide) (packSSfvs_codes (by decide) (by decide) (by decide) ..).1.symm⟩

theorem EncodedCell.vmergeVS (m : MaskSel) (vd va : VReg) (rs : SReg) : EncodedCell.Statement (.vmergeVS m vd va rs) :=
  ⟨fun _ _ _ => rfl, fun _ h => Option.some.inj h ▸
    le_of_le_of_eq (by decide) (packSSvs_codes (by decide) (by decide) (by decide) ..).1.symm⟩

theorem EncodedCell.vcmpneqVS (m : MaskSel) (fd : FReg) (va : VReg) (rs : SReg) : EncodedCell.Statement (.vcmpneqVS m fd va rs) :=
  ⟨fun _ _ _ => rfl, fun _ h => Option.some.inj h ▸
    le_of_le_of_eq (by decide) (packSSfvs_codes (by decide) (by decide) (by decide) ..).1.symm⟩

theorem EncodedCell.vcmpltuVS (m : MaskSel) (fd : FReg) (va : VReg) (rs : SReg) : EncodedCell.Statement (.vcmpltuVS m fd va rs) :=
  ⟨fun _ _ _ => rfl, fun _ h => Option.some.inj h ▸
    le_of_le_of_eq (by decide) (packSSfvs_codes (by decide) (by decide) (by decide) ..).1.symm⟩

theorem EncodedCell.vdivuVS (m : MaskSel) (vd va : VReg) (rs : SReg) : EncodedCell.Statement (.vdivuVS m vd va rs) :=
  ⟨fun _ _ _ => rfl, fun _ h => Option.some.inj h ▸
    le_of_le_of_eq (by decide) (packSSvs_codes (by decide) (by decide) (by decide) ..).1.symm⟩

theorem EncodedCell.vcmpleuVS (m : MaskSel) (fd : FReg) (va : VReg) (rs : SReg) : EncodedCell.Statement (.vcmpleuVS m fd va rs) :=
  ⟨fun _ _ _ => rfl, fun _ h => Option.some.inj h ▸
    le_of_le_of_eq (by decide) (packSSfvs_codes (by decide) (by decide) (by decide) ..).1.symm⟩

theorem EncodedCell.vmaxVS (m : MaskSel) (vd va : VReg) (rs : SReg) : EncodedCell.Statement (.vmaxVS m vd va rs) :=
  ⟨fun _ _ _ => rfl, fun _ h => Option.some.inj h ▸
    le_of_le_of_eq (by decide) (packSSvs_codes (by decide) (by decide) (by decide) ..).1.symm⟩

theorem EncodedCell.vextVS (rs : SReg) (va : VReg) : EncodedCell.Statement (.vextVS rs va) :=
  ⟨fun _ _ _ => rfl, fun _ h => Option.some.inj h ▸
    le_of_le_of_eq (by decide) (packSDv_codes (by decide) (by decide) (by decide) ..).1.symm⟩

theorem EncodedCell.vinsVS (vd : VReg) (rs : SReg) : EncodedCell.Statement (.vinsVS vd rs) :=
  ⟨fun _ _ _ => rfl, fun _ h => Option.some.inj h ▸
    le_of_le_of_eq (by decide) (packSSd_codes (by decide) (by decide) (by decide) ..).1.symm⟩

theorem EncodedCell.vminVS (m : MaskSel) (vd va : VReg) (rs : SReg) : EncodedCell.Statement (.vminVS m vd va rs) :=
  ⟨fun _ _ _ => rfl, fun _ h => Option.some.inj h ▸
    le_of_le_of_eq (by decide) (packSSvs_codes (by decide) (by decide) (by decide) ..).1.symm⟩

theorem EncodedCell.vmulhiVS (m : MaskSel) (vd va : VReg) (rs : SReg) : EncodedCell.Statement (.vmulhiVS m vd va rs) :=
  ⟨fun _ _ _ => rfl, fun _ h => Option.some.inj h ▸
    le_of_le_of_eq (by decide) (packSSvs_codes (by decide) (by decide) (by decide) ..).1.symm⟩

theorem EncodedCell.vmulloVS (m : MaskSel) (vd va : VReg) (rs : SReg) : EncodedCell.Statement (.vmulloVS m vd va rs) :=
  ⟨fun _ _ _ => rfl, fun _ h => Option.some.inj h ▸
    le_of_le_of_eq (by decide) (packSSvs_codes (by decide) (by decide) (by decide) ..).1.symm⟩

theorem EncodedCell.vmaxuVS (m : MaskSel) (vd va : VReg) (rs : SReg) : EncodedCell.Statement (.vmaxuVS m vd va rs) :=
  ⟨fun _ _ _ => rfl, fun _ h => Option.some.inj h ▸
    le_of_le_of_eq (by decide) (packSSvs_codes (by decide) (by decide) (by decide) ..).1.symm⟩

theorem EncodedCell.vextuVS (rs : SReg) (va : VReg) : EncodedCell.Statement (.vextuVS rs va) :=
  ⟨fun _ _ _ => rfl, fun _ h => Option.some.inj h ▸
    le_of_le_of_eq (by decide) (packSDv_codes (by decide) (by decide) (by decide) ..).1.symm⟩

theorem EncodedCell.vminuVS (m : MaskSel) (vd va : VReg) (rs : SReg) : EncodedCell.Statement (.vminuVS m vd va rs) :=
  ⟨fun _ _ _ => rfl, fun _ h => Option.some.inj h ▸
    le_of_le_of_eq (by decide) (packSSvs_codes (by decide) (by decide) (by decide) ..).1.symm⟩

theorem EncodedCell.vmulhiuVS (m : MaskSel) (vd va : VReg) (rs : SReg) : EncodedCell.Statement (.vmulhiuVS m vd va rs) :=
  ⟨fun _ _ _ => rfl, fun _ h => Option.some.inj h ▸
    le_of_le_of_eq (by decide) (packSSvs_codes (by decide) (by decide) (by decide) ..).1.symm⟩

theorem EncodedCell.vmullouVS (m : MaskSel) (vd va : VReg) (rs : SReg) : EncodedCell.Statement (.vmullouVS m vd va rs) :=
  ⟨fun _ _ _ => rfl, fun _ h => Option.some.inj h ▸
    le_of_le_of_eq (by decide) (packSSvs_codes (by decide) (by decide) (by decide) ..).1.symm⟩

theorem EncodedCell.vsraSV (m : MaskSel) (vd : VReg) (rs : SReg) (vb : VReg) : EncodedCell.Statement (.vsraSV m vd rs vb) :=
  ⟨fun _ _ _ => rfl, fun _ h => Option.some.inj h ▸
    le_of_le_of_eq (by decide) (packSSvs_codes (by decide) (by decide) (by decide) ..).1.symm⟩

theorem EncodedCell.vsubSV (m : MaskSel) (vd : VReg) (rs : SReg) (vb : VReg) : EncodedCell.Statement (.vsubSV m vd rs vb) :=
  ⟨fun _ _ _ => rfl, fun _ h => Option.some.inj h ▸
    le_of_le_of_eq (by decide) (packSSvs_codes (by decide) (by decide) (by decide) ..).1.symm⟩

theorem EncodedCell.vsllSV (m : MaskSel) (vd : VReg) (rs : SReg) (vb : VReg) : EncodedCell.Statement (.vsllSV m vd rs vb) :=
  ⟨fun _ _ _ => rfl, fun _ h => Option.some.inj h ▸
    le_of_le_of_eq (by decide) (packSSvs_codes (by decide) (by decide) (by decide) ..).1.symm⟩

theorem EncodedCell.vsrlSV (m : MaskSel) (vd : VReg) (rs : SReg) (vb : VReg) : EncodedCell.Statement (.vsrlSV m vd rs vb) :=
  ⟨fun _ _ _ => rfl, fun _ h => Option.some.inj h ▸
    le_of_le_of_eq (by decide) (packSSvs_codes (by decide) (by decide) (by decide) ..).1.symm⟩

theorem EncodedCell.vrotSV (m : MaskSel) (vd : VReg) (rs : SReg) (vb : VReg) : EncodedCell.Statement (.vrotSV m vd rs vb) :=
  ⟨fun _ _ _ => rfl, fun _ h => Option.some.inj h ▸
    le_of_le_of_eq (by decide) (packSSvs_codes (by decide) (by decide) (by decide) ..).1.symm⟩

theorem EncodedCell.vcmpltSV (m : MaskSel) (fd : FReg) (rs : SReg) (vb : VReg) : EncodedCell.Statement (.vcmpltSV m fd rs vb) :=
  ⟨fun _ _ _ => rfl, fun _ h => Option.some.inj h ▸
    le_of_le_of_eq (by decide) (packSSfvs_codes (by decide) (by decide) (by decide) ..).1.symm⟩

theorem EncodedCell.vdivSV (m : MaskSel) (vd : VReg) (rs : SReg) (vb : VReg) : EncodedCell.Statement (.vdivSV m vd rs vb) :=
  ⟨fun _ _ _ => rfl, fun _ h => Option.some.inj h ▸
    le_of_le_of_eq (by decide) (packSSvs_codes (by decide) (by decide) (by decide) ..).1.symm⟩

theorem EncodedCell.vcmpleSV (m : MaskSel) (fd : FReg) (rs : SReg) (vb : VReg) : EncodedCell.Statement (.vcmpleSV m fd rs vb) :=
  ⟨fun _ _ _ => rfl, fun _ h => Option.some.inj h ▸
    le_of_le_of_eq (by decide) (packSSfvs_codes (by decide) (by decide) (by decide) ..).1.symm⟩

theorem EncodedCell.vmergeSV (m : MaskSel) (vd : VReg) (rs : SReg) (vb : VReg) : EncodedCell.Statement (.vmergeSV m vd rs vb) :=
  ⟨fun _ _ _ => rfl, fun _ h => Option.some.inj h ▸
    le_of_le_of_eq (by decide) (packSSvs_codes (by decide) (by decide) (by decide) ..).1.symm⟩

theorem EncodedCell.vsubuSV (m : MaskSel) (vd : VReg) (rs : SReg) (vb : VReg) : EncodedCell.Statement (.vsubuSV m vd rs vb) :=
  ⟨fun _ _ _ => rfl, fun _ h => Option.some.inj h ▸
    le_of_le_of_eq (by decide) (packSSvs_codes (by decide) (by decide) (by decide) ..).1.symm⟩

theorem EncodedCell.vcmpltuSV (m : MaskSel) (fd : FReg) (rs : SReg) (vb : VReg) : EncodedCell.Statement (.vcmpltuSV m fd rs vb) :=
  ⟨fun _ _ _ => rfl, fun _ h => Option.some.inj h ▸
    le_of_le_of_eq (by decide) (packSSfvs_codes (by decide) (by decide) (by decide) ..).1.symm⟩

theorem EncodedCell.vdivuSV (m : MaskSel) (vd : VReg) (rs : SReg) (vb : VReg) : EncodedCell.Statement (.vdivuSV m vd rs vb) :=
  ⟨fun _ _ _ => rfl, fun _ h => Option.some.inj h ▸
    le_of_le_of_eq (by decide) (packSSvs_codes (by decide) (by decide) (by decide) ..).1.symm⟩

theorem EncodedCell.vcmpleuSV (m : MaskSel) (fd : FReg) (rs : SReg) (vb : VReg) : EncodedCell.Statement (.vcmpleuSV m fd rs vb) :=
  ⟨fun _ _ _ => rfl, fun _ h => Option.some.inj h ▸
    le_of_le_of_eq (by decide) (packSSfvs_codes (by decide) (by decide) (by decide) ..).1.symm⟩

theorem EncodedCell.vsaddVV (m : MaskSel) (vd va vb : VReg) : EncodedCell.Statement (.vsaddVV m vd va vb) :=
  ⟨fun _ _ _ => rfl, fun _ h => Option.some.inj h ▸
    le_of_le_of_eq (by decide) (packVRvvv_codes (by decide) (by decide) (by decide) ..).1.symm⟩

theorem EncodedCell.vssubVV (m : MaskSel) (vd va vb : VReg) : EncodedCell.Statement (.vssubVV m vd va vb) :=
  ⟨fun _ _ _ => rfl, fun _ h => Option.some.inj h ▸
    le_of_le_of_eq (by decide) (packVRvvv_codes (by decide) (by decide) (by decide) ..).1.symm⟩

theorem EncodedCell.vsat (n : Width) (m : MaskSel) (vd va : VReg) : EncodedCell.Statement (.vsat n m vd va) :=
  ⟨fun _ _ _ => rfl, fun _ h => Option.some.inj h ▸
    le_of_le_of_eq (by decide) (packVRmda_codes (by decide) (by decide) (by decide) ..).1.symm⟩

theorem EncodedCell.vsrr (m : MaskSel) (vd va : VReg) : EncodedCell.Statement (.vsrr m vd va) :=
  ⟨fun _ _ _ => rfl, fun _ h => Option.some.inj h ▸
    le_of_le_of_eq (by decide) (packVRmda_codes (by decide) (by decide) (by decide) ..).1.symm⟩

theorem EncodedCell.vsls (m : MaskSel) (vd va : VReg) : EncodedCell.Statement (.vsls m vd va) :=
  ⟨fun _ _ _ => rfl, fun _ h => Option.some.inj h ▸
    le_of_le_of_eq (by decide) (packVRmda_codes (by decide) (by decide) (by decide) ..).1.symm⟩

theorem EncodedCell.vxmulhiVV (m : MaskSel) (vd va vb : VReg) : EncodedCell.Statement (.vxmulhiVV m vd va vb) :=
  ⟨fun _ _ _ => rfl, fun _ h => Option.some.inj h ▸
    le_of_le_of_eq (by decide) (packVRvvv_codes (by decide) (by decide) (by decide) ..).1.symm⟩

theorem EncodedCell.vxmulloVV (m : MaskSel) (vd va vb : VReg) : EncodedCell.Statement (.vxmulloVV m vd va vb) :=
  ⟨fun _ _ _ => rfl, fun _ h => Option.some.inj h ▸
    le_of_le_of_eq (by decide) (packVRvvv_codes (by decide) (by decide) (by decide) ..).1.symm⟩

theorem EncodedCell.vsadduVV (m : MaskSel) (vd va vb : VReg) : EncodedCell.Statement (.vsadduVV m vd va vb) :=
  ⟨fun _ _ _ => rfl, fun _ h => Option.some.inj h ▸
    le_of_le_of_eq (by decide) (packVRvvv_codes (by decide) (by decide) (by decide) ..).1.symm⟩

theorem EncodedCell.vssubuVV (m : MaskSel) (vd va vb : VReg) : EncodedCell.Statement (.vssubuVV m vd va vb) :=
  ⟨fun _ _ _ => rfl, fun _ h => Option.some.inj h ▸
    le_of_le_of_eq (by decide) (packVRvvv_codes (by decide) (by decide) (by decide) ..).1.symm⟩

theorem EncodedCell.vsatu (n : Width) (m : MaskSel) (vd va : VReg) : EncodedCell.Statement (.vsatu n m vd va) :=
  ⟨fun _ _ _ => rfl, fun _ h => Option.some.inj h ▸
    le_of_le_of_eq (by decide) (packVRmda_codes (by decide) (by decide) (by decide) ..).1.symm⟩

theorem EncodedCell.vsrru (m : MaskSel) (vd va : VReg) : EncodedCell.Statement (.vsrru m vd va) :=
  ⟨fun _ _ _ => rfl, fun _ h => Option.some.inj h ▸
    le_of_le_of_eq (by decide) (packVRmda_codes (by decide) (by decide) (by decide) ..).1.symm⟩

theorem EncodedCell.vslsu (m : MaskSel) (vd va : VReg) : EncodedCell.Statement (.vslsu m vd va) :=
  ⟨fun _ _ _ => rfl, fun _ h => Option.some.inj h ▸
    le_of_le_of_eq (by decide) (packVRmda_codes (by decide) (by decide) (by decide) ..).1.symm⟩

theorem EncodedCell.vxmulhiuVV (m : MaskSel) (vd va vb : VReg) : EncodedCell.Statement (.vxmulhiuVV m vd va vb) :=
  ⟨fun _ _ _ => rfl, fun _ h => Option.some.inj h ▸
    le_of_le_of_eq (by decide) (packVRvvv_codes (by decide) (by decide) (by decide) ..).1.symm⟩

theorem EncodedCell.vxmullouVV (m : MaskSel) (vd va vb : VReg) : EncodedCell.Statement (.vxmullouVV m vd va vb) :=
  ⟨fun _ _ _ => rfl, fun _ h => Option.some.inj h ▸
    le_of_le_of_eq (by decide) (packVRvvv_codes (by decide) (by decide) (by decide) ..).1.symm⟩

theorem EncodedCell.vxccacc (vd : VReg) : EncodedCell.Statement (.vxccacc vd) :=
  ⟨fun _ _ _ => rfl, fun _ h => Option.some.inj h ▸
    le_of_le_of_eq (by decide) (packVRd_codes (by decide) (by decide) (by decide) ..).1.symm⟩

theorem EncodedCell.vsatsu (n : Width) (m : MaskSel) (vd va : VReg) : EncodedCell.Statement (.vsatsu n m vd va) :=
  ⟨fun _ _ _ => rfl, fun _ h => Option.some.inj h ▸
    le_of_le_of_eq (by decide) (packVRmda_codes (by decide) (by decide) (by decide) ..).1.symm⟩

theorem EncodedCell.vxcczacc (vd : VReg) : EncodedCell.Statement (.vxcczacc vd) :=
  ⟨fun _ _ _ => rfl, fun _ h => Option.some.inj h ▸
    le_of_le_of_eq (by decide) (packVRd_codes (by decide) (by decide) (by decide) ..).1.symm⟩

theorem EncodedCell.vsaddVS (m : MaskSel) (vd va : VReg) (rs : SReg) : EncodedCell.Statement (.vsaddVS m vd va rs) :=
  ⟨fun _ _ _ => rfl, fun _ h => Option.some.inj h ▸
    le_of_le_of_eq (by decide) (packSSvs_codes (by decide) (by decide) (by decide) ..).1.symm⟩

theorem EncodedCell.vssubVS (m : MaskSel) (vd va : VReg) (rs : SReg) : EncodedCell.Statement (.vssubVS m vd va rs) :=
  ⟨fun _ _ _ => rfl, fun _ h => Option.some.inj h ▸
    le_of_le_of_eq (by decide) (packSSvs_codes (by decide) (by decide) (by decide) ..).1.symm⟩

theorem EncodedCell.vxmulhiVS (m : MaskSel) (vd va : VReg) (rs : SReg) : EncodedCell.Statement (.vxmulhiVS m vd va rs) :=
  ⟨fun _ _ _ => rfl, fun _ h => Option.some.inj h ▸
    le_of_le_of_eq (by decide) (packSSvs_codes (by decide) (by decide) (by decide) ..).1.symm⟩

theorem EncodedCell.vxmulloVS (m : MaskSel) (vd va : VReg) (rs : SReg) : EncodedCell.Statement (.vxmulloVS m vd va rs) :=
  ⟨fun _ _ _ => rfl, fun _ h => Option.some.inj h ▸
    le_of_le_of_eq (by decide) (packSSvs_codes (by decide) (by decide) (by decide) ..).1.symm⟩

theorem EncodedCell.vsadduVS (m : MaskSel) (vd va : VReg) (rs : SReg) : EncodedCell.Statement (.vsadduVS m vd va rs) :=
  ⟨fun _ _ _ => rfl, fun _ h => Option.some.inj h ▸
    le_of_le_of_eq (by decide) (packSSvs_codes (by decide) (by decide) (by decide) ..).1.symm⟩

theorem EncodedCell.vssubuVS (m : MaskSel) (vd va : VReg) (rs : SReg) : EncodedCell.Statement (.vssubuVS m vd va rs) :=
  ⟨fun _ _ _ => rfl, fun _ h => Option.some.inj h ▸
    le_of_le_of_eq (by decide) (packSSvs_codes (by decide) (by decide) (by decide) ..).1.symm⟩

theorem EncodedCell.vxmulhiuVS (m : MaskSel) (vd va : VReg) (rs : SReg) : EncodedCell.Statement (.vxmulhiuVS m vd va rs) :=
  ⟨fun _ _ _ => rfl, fun _ h => Option.some.inj h ▸
    le_of_le_of_eq (by decide) (packSSvs_codes (by decide) (by decide) (by decide) ..).1.symm⟩

theorem EncodedCell.vxmullouVS (m : MaskSel) (vd va : VReg) (rs : SReg) : EncodedCell.Statement (.vxmullouVS m vd va rs) :=
  ⟨fun _ _ _ => rfl, fun _ h => Option.some.inj h ▸
    le_of_le_of_eq (by decide) (packSSvs_codes (by decide) (by decide) (by decide) ..).1.symm⟩

theorem EncodedCell.vssubSV (m : MaskSel) (vd : VReg) (rs : SReg) (vb : VReg) : EncodedCell.Statement (.vssubSV m vd rs vb) :=
  ⟨fun _ _ _ => rfl, fun _ h => Option.some.inj h ▸
    le_of_le_of_eq (by decide) (packSSvs_codes (by decide) (by decide) (by decide) ..).1.symm⟩

theorem EncodedCell.vssubuSV (m : MaskSel) (vd : VReg) (rs : SReg) (vb : VReg) : EncodedCell.Statement (.vssubuSV m vd rs vb) :=
  ⟨fun _ _ _ => rfl, fun _ h => Option.some.inj h ▸
    le_of_le_of_eq (by decide) (packSSvs_codes (by decide) (by decide) (by decide) ..).1.symm⟩

theorem EncodedCell.vfclr (fd : FReg) : EncodedCell.Statement (.vfclr fd) :=
  ⟨fun _ _ _ => rfl, fun _ h => Option.some.inj h ▸
    le_of_le_of_eq (by decide) (packVRf_codes (by decide) (by decide) (by decide) ..).1.symm⟩

theorem EncodedCell.vfset (fd : FReg) : EncodedCell.Statement (.vfset fd) :=
  ⟨fun _ _ _ => rfl, fun _ h => Option.some.inj h ▸
    le_of_le_of_eq (by decide) (packVRf_codes (by decide) (by decide) (by decide) ..).1.symm⟩

theorem EncodedCell.vfandVV (fd fa fb : FReg) : EncodedCell.Statement (.vfandVV fd fa fb) :=
  ⟨fun _ _ _ => rfl, fun _ h => Option.some.inj h ▸
    le_of_le_of_eq (by decide) (packVRfff_codes (by decide) (by decide) (by decide) ..).1.symm⟩

theorem EncodedCell.vfnorVV (fd fa fb : FReg) : EncodedCell.Statement (.vfnorVV fd fa fb) :=
  ⟨fun _ _ _ => rfl, fun _ h => Option.some.inj h ▸
    le_of_le_of_eq (by decide) (packVRfff_codes (by decide) (by decide) (by decide) ..).1.symm⟩

theorem EncodedCell.vforVV (fd fa fb : FReg) : EncodedCell.Statement (.vforVV fd fa fb) :=
  ⟨fun _ _ _ => rfl, fun _ h => Option.some.inj h ▸
    le_of_le_of_eq (by decide) (packVRfff_codes (by decide) (by decide) (by decide) ..).1.symm⟩

theorem EncodedCell.vfxorVV (fd fa fb : FReg) : EncodedCell.Statement (.vfxorVV fd fa fb) :=
  ⟨fun _ _ _ => rfl, fun _ h => Option.some.inj h ▸
    le_of_le_of_eq (by decide) (packVRfff_codes (by decide) (by decide) (by decide) ..).1.symm⟩

theorem EncodedCell.vfff1 (rs : SReg) (fa : FReg) : EncodedCell.Statement (.vfff1 rs fa) :=
  ⟨fun _ _ _ => rfl, fun _ h => Option.some.inj h ▸
    le_of_le_of_eq (by decide) (packSDf_codes (by decide) (by decide) (by decide) ..).1.symm⟩

theorem EncodedCell.vffl1 (rs : SReg) (fa : FReg) : EncodedCell.Statement (.vffl1 rs fa) :=
  ⟨fun _ _ _ => rfl, fun _ h => Option.some.inj h ▸
    le_of_le_of_eq (by decide) (packSDf_codes (by decide) (by decide) (by decide) ..).1.symm⟩

theorem EncodedCell.vfsetof (fd fa : FReg) : EncodedCell.Statement (.vfsetof fd fa) :=
  ⟨fun _ _ _ => rfl, fun _ h => Option.some.inj h ▸
    le_of_le_of_eq (by decide) (packVRff_codes (by decide) (by decide) (by decide) ..).1.symm⟩

theorem EncodedCell.vfsetbf (fd fa : FReg) : EncodedCell.Statement (.vfsetbf fd fa) :=
  ⟨fun _ _ _ => rfl, fun _ h => Option.some.inj h ▸
    le_of_le_of_eq (by decide) (packVRff_codes (by decide) (by decide) (by decide) ..).1.symm⟩

theorem EncodedCell.vfsetif (fd fa : FReg) : EncodedCell.Statement (.vfsetif fd fa) :=
  ⟨fun _ _ _ => rfl, fun _ h => Option.some.inj h ▸
    le_of_le_of_eq (by decide) (packVRff_codes (by decide) (by decide) (by decide) ..).1.symm⟩

theorem EncodedCell.vfinsVS (fd : FReg) (rs : SReg) : EncodedCell.Statement (.vfinsVS fd rs) :=
  ⟨fun _ _ _ => rfl, fun _ h => Option.some.inj h ▸
    le_of_le_of_eq (by decide) (packSSf_codes (by decide) (by decide) (by decide) ..).1.symm⟩

theorem EncodedCell.vfandVS (fd fa : FReg) (rs : SReg) : EncodedCell.Statement (.vfandVS fd fa rs) :=
  ⟨fun _ _ _ => rfl, fun _ h => Option.some.inj h ▸
    le_of_le_of_eq (by decide) (packSSff_codes (by decide) (by decide) (by decide) ..).1.symm⟩

theorem EncodedCell.vfnorVS (fd fa : FReg) (rs : SReg) : EncodedCell.Statement (.vfnorVS fd fa rs) :=
  ⟨fun _ _ _ => rfl, fun _ h => Option.some.inj h ▸
    le_of_le_of_eq (by decide) (packSSff_codes (by decide) (by decide) (by decide) ..).1.symm⟩

theorem EncodedCell.vforVS (fd fa : FReg) (rs : SReg) : EncodedCell.Statement (.vforVS fd fa rs) :=
  ⟨fun _ _ _ => rfl, fun _ h => Option.some.inj h ▸
    le_of_le_of_eq (by decide) (packSSff_codes (by decide) (by decide) (by decide) ..).1.symm⟩

theorem EncodedCell.vfxorVS (fd fa : FReg) (rs : SReg) : EncodedCell.Statement (.vfxorVS fd fa rs) :=
  ⟨fun _ _ _ => rfl, fun _ h => Option.some.inj h ▸
    le_of_le_of_eq (by decide) (packSSff_codes (by decide) (by decide) (by decide) ..).1.symm⟩

theorem EncodedCell.vmstc (vc : CReg) (rs : SReg) : EncodedCell.Statement (.vmstc vc rs) :=
  ⟨fun _ _ _ => rfl, fun _ h => Option.some.inj h ▸
    le_of_le_of_eq (by decide) (packSSc_codes (by decide) (by decide) (by decide) ..).1.symm⟩

theorem EncodedCell.vmcts (rs : SReg) (vc : CReg) : EncodedCell.Statement (.vmcts rs vc) :=
  ⟨fun _ _ _ => rfl, fun _ h => Option.some.inj h ▸
    le_of_le_of_eq (by decide) (packSDc_codes (by decide) (by decide) (by decide) ..).1.symm⟩

theorem EncodedCell.vldB (m : MaskSel) (vd : VReg) (vb : VBase) (vi : VInc) : EncodedCell.Statement (.vldB m vd vb vi) :=
  ⟨fun _ _ _ => rfl, fun _ h => Option.some.inj h ▸
    le_of_le_of_eq (by decide) (packVM_codes (by decide) (by decide) (by decide) ..).1.symm⟩

theorem EncodedCell.vstB (m : MaskSel) (va : VReg) (vb : VBase) (vi : VInc) : EncodedCell.Statement (.vstB m va vb vi) :=
  ⟨fun _ _ _ => rfl, fun _ h => Option.some.inj h ▸
    le_of_le_of_eq (by decide) (packVM_codes (by decide) (by decide) (by decide) ..).1.symm⟩

theorem EncodedCell.vldsB (m : MaskSel) (vd : VReg) (vb : VBase) (vs : VStride) (vi : VInc) : EncodedCell.Statement (.vldsB m vd vb vs vi) :=
  ⟨fun _ _ _ => rfl, fun _ h => Option.some.inj h ▸
    le_of_le_of_eq (by decide) (packVMS_codes (by decide) (by decide) (by decide) ..).1.symm⟩

theorem EncodedCell.vstsB (m : MaskSel) (va : VReg) (vb : VBase) (vs : VStride) (vi : VInc) : EncodedCell.Statement (.vstsB m va vb vs vi) :=
  ⟨fun _ _ _ => rfl, fun _ h => Option.some.inj h ▸
    le_of_le_of_eq (by decide) (packVMS_codes (by decide) (by decide) (by decide) ..).1.symm⟩

theorem EncodedCell.vldxB (m : MaskSel) (vd vo : VReg) (vb : VBase) : EncodedCell.Statement (.vldxB m vd vo vb) :=
  ⟨fun _ _ _ => rfl, fun _ h => Option.some.inj h ▸
    le_of_le_of_eq (by decide) (packVMX_codes (by decide) (by decide) (by decide) ..).1.symm⟩

theorem EncodedCell.vstxuB (m : MaskSel) (va vo : VReg) (vb : VBase) : EncodedCell.Statement (.vstxuB m va vo vb) :=
  ⟨fun _ _ _ => rfl, fun _ h => Option.some.inj h ▸
    le_of_le_of_eq (by decide) (packVMX_codes (by decide) (by decide) (by decide) ..).1.symm⟩

theorem EncodedCell.vstxB (m : MaskSel) (va vo : VReg) (vb : VBase) : EncodedCell.Statement (.vstxB m va vo vb) :=
  ⟨fun _ _ _ => rfl, fun _ h => Option.some.inj h ▸
    le_of_le_of_eq (by decide) (packVMX_codes (by decide) (by decide) (by decide) ..).1.symm⟩

theorem EncodedCell.vlduB (m : MaskSel) (vd : VReg) (vb : VBase) (vi : VInc) : EncodedCell.Statement (.vlduB m vd vb vi) :=
  ⟨fun _ _ _ => rfl, fun _ h => Option.some.inj h ▸
    le_of_le_of_eq (by decide) (packVM_codes (by decide) (by decide) (by decide) ..).1.symm⟩

theorem EncodedCell.vldsuB (m : MaskSel) (vd : VReg) (vb : VBase) (vs : VStride) (vi : VInc) : EncodedCell.Statement (.vldsuB m vd vb vs vi) :=
  ⟨fun _ _ _ => rfl, fun _ h => Option.some.inj h ▸
    le_of_le_of_eq (by decide) (packVMS_codes (by decide) (by decide) (by decide) ..).1.symm⟩

theorem EncodedCell.vldxuB (m : MaskSel) (vd vo : VReg) (vb : VBase) : EncodedCell.Statement (.vldxuB m vd vo vb) :=
  ⟨fun _ _ _ => rfl, fun _ h => Option.some.inj h ▸
    le_of_le_of_eq (by decide) (packVMX_codes (by decide) (by decide) (by decide) ..).1.symm⟩

theorem EncodedCell.vldH (m : MaskSel) (vd : VReg) (vb : VBase) (vi : VInc) : EncodedCell.Statement (.vldH m vd vb vi) :=
  ⟨fun _ _ _ => rfl, fun _ h => Option.some.inj h ▸
    le_of_le_of_eq (by decide) (packVM_codes (by decide) (by decide) (by decide) ..).1.symm⟩

theorem EncodedCell.vstH (m : MaskSel) (va : VReg) (vb : VBase) (vi : VInc) : EncodedCell.Statement (.vstH m va vb vi) :=
  ⟨fun _ _ _ => rfl, fun _ h => Option.some.inj h ▸
    le_of_le_of_eq (by decide) (packVM_codes (by decide) (by decide) (by decide) ..).1.symm⟩

theorem EncodedCell.vldsH (m : MaskSel) (vd : VReg) (vb : VBase) (vs : VStride) (vi : VInc) : EncodedCell.Statement (.vldsH m vd vb vs vi) :=
  ⟨fun _ _ _ => rfl, fun _ h => Option.some.inj h ▸
    le_of_le_of_eq (by decide) (packVMS_codes (by decide) (by decide) (by decide) ..).1.symm⟩

theorem EncodedCell.vstsH (m : MaskSel) (va : VReg) (vb : VBase) (vs : VStride) (vi : VInc) : EncodedCell.Statement (.vstsH m va vb vs vi) :=
  ⟨fun _ _ _ => rfl, fun _ h => Option.some.inj h ▸
    le_of_le_of_eq (by decide) (packVMS_codes (by decide) (by decide) (by decide) ..).1.symm⟩

theorem EncodedCell.vldxH (m : MaskSel) (vd vo : VReg) (vb : VBase) : EncodedCell.Statement (.vldxH m vd vo vb) :=
  ⟨fun _ _ _ => rfl, fun _ h => Option.some.inj h ▸
    le_of_le_of_eq (by decide) (packVMX_codes (by decide) (by decide) (by decide) ..).1.symm⟩

theorem EncodedCell.vstxuH (m : MaskSel) (va vo : VReg) (vb : VBase) : EncodedCell.Statement (.vstxuH m va vo vb) :=
  ⟨fun _ _ _ => rfl, fun _ h => Option.some.inj h ▸
    le_of_le_of_eq (by decide) (packVMX_codes (by decide) (by decide) (by decide) ..).1.symm⟩

theorem EncodedCell.vstxH (m : MaskSel) (va vo : VReg) (vb : VBase) : EncodedCell.Statement (.vstxH m va vo vb) :=
  ⟨fun _ _ _ => rfl, fun _ h => Option.some.inj h ▸
    le_of_le_of_eq (by decide) (packVMX_codes (by decide) (by decide) (by decide) ..).1.symm⟩

theorem EncodedCell.vlduH (m : MaskSel) (vd : VReg) (vb : VBase) (vi : VInc) : EncodedCell.Statement (.vlduH m vd vb vi) :=
  ⟨fun _ _ _ => rfl, fun _ h => Option.some.inj h ▸
    le_of_le_of_eq (by decide) (packVM_codes (by decide) (by decide) (by decide) ..).1.symm⟩

theorem EncodedCell.vldsuH (m : MaskSel) (vd : VReg) (vb : VBase) (vs : VStride) (vi : VInc) : EncodedCell.Statement (.vldsuH m vd vb vs vi) :=
  ⟨fun _ _ _ => rfl, fun _ h => Option.some.inj h ▸
    le_of_le_of_eq (by decide) (packVMS_codes (by decide) (by decide) (by decide) ..).1.symm⟩

theorem EncodedCell.vldxuH (m : MaskSel) (vd vo : VReg) (vb : VBase) : EncodedCell.Statement (.vldxuH m vd vo vb) :=
  ⟨fun _ _ _ => rfl, fun _ h => Option.some.inj h ▸
    le_of_le_of_eq (by decide) (packVMX_codes (by decide) (by decide) (by decide) ..).1.symm⟩

theorem EncodedCell.vldW (m : MaskSel) (vd : VReg) (vb : VBase) (vi : VInc) : EncodedCell.Statement (.vldW m vd vb vi) :=
  ⟨fun _ _ _ => rfl, fun _ h => Option.some.inj h ▸
    le_of_le_of_eq (by decide) (packVM_codes (by decide) (by decide) (by decide) ..).1.symm⟩

theorem EncodedCell.vstW (m : MaskSel) (va : VReg) (vb : VBase) (vi : VInc) : EncodedCell.Statement (.vstW m va vb vi) :=
  ⟨fun _ _ _ => rfl, fun _ h => Option.some.inj h ▸
    le_of_le_of_eq (by decide) (packVM_codes (by decide) (by decide) (by decide) ..).1.symm⟩

theorem EncodedCell.vldsW (m : MaskSel) (vd : VReg) (vb : VBase) (vs : VStride) (vi : VInc) : EncodedCell.Statement (.vldsW m vd vb vs vi) :=
  ⟨fun _ _ _ => rfl, fun _ h => Option.some.inj h ▸
    le_of_le_of_eq (by decide) (packVMS_codes (by decide) (by decide) (by decide) ..).1.symm⟩

theorem EncodedCell.vstsW (m : MaskSel) (va : VReg) (vb : VBase) (vs : VStride) (vi : VInc) : EncodedCell.Statement (.vstsW m va vb vs vi) :=
  ⟨fun _ _ _ => rfl, fun _ h => Option.some.inj h ▸
    le_of_le_of_eq (by decide) (packVMS_codes (by decide) (by decide) (by decide) ..).1.symm⟩

theorem EncodedCell.vldxW (m : MaskSel) (vd vo : VReg) (vb : VBase) : EncodedCell.Statement (.vldxW m vd vo vb) :=
  ⟨fun _ _ _ => rfl, fun _ h => Option.some.inj h ▸
    le_of_le_of_eq (by decide) (packVMX_codes (by decide) (by decide) (by decide) ..).1.symm⟩

theorem EncodedCell.vstxuW (m : MaskSel) (va vo : VReg) (vb : VBase) : EncodedCell.Statement (.vstxuW m va vo vb) :=
  ⟨fun _ _ _ => rfl, fun _ h => Option.some.inj h ▸
    le_of_le_of_eq (by decide) (packVMX_codes (by decide) (by decide) (by decide) ..).1.symm⟩

theorem EncodedCell.vstxW (m : MaskSel) (va vo : VReg) (vb : VBase) : EncodedCell.Statement (.vstxW m va vo vb) :=
  ⟨fun _ _ _ => rfl, fun _ h => Option.some.inj h ▸
    le_of_le_of_eq (by decide) (packVMX_codes (by decide) (by decide) (by decide) ..).1.symm⟩

theorem EncodedCell.vldlVV (m : MaskSel) (vd va : VReg) : EncodedCell.Statement (.vldlVV m vd va) :=
  ⟨fun _ _ _ => rfl, fun _ h => Option.some.inj h ▸
    le_of_le_of_eq (by decide) (packVRmda_codes (by decide) (by decide) (by decide) ..).1.symm⟩

theorem EncodedCell.vstlVV (m : MaskSel) (va vb : VReg) : EncodedCell.Statement (.vstlVV m va vb) :=
  ⟨fun _ _ _ => rfl, fun _ h => Option.some.inj h ▸
    le_of_le_of_eq (by decide) (packVRab_codes (by decide) (by decide) (by decide) ..).1.symm⟩

theorem EncodedCell.vfld (fd : FReg) (vb : VBase) (vi : VInc) : EncodedCell.Statement (.vfld fd vb vi) :=
  ⟨fun _ _ _ => rfl, fun _ h => Option.some.inj h ▸
    le_of_le_of_eq (by decide) (packVMf_codes (by decide) (by decide) (by decide) ..).1.symm⟩

theorem EncodedCell.vfst (fd : FReg) (vb : VBase) (vi : VInc) : EncodedCell.Statement (.vfst fd vb vi) :=
  ⟨fun _ _ _ => rfl, fun _ h => Option.some.inj h ▸
    le_of_le_of_eq (by decide) (packVMf_codes (by decide) (by decide) (by decide) ..).1.symm⟩

theorem EncodedCell.vstlVS (m : MaskSel) (va : VReg) (rs : SReg) : EncodedCell.Statement (.vstlVS m va rs) :=
  ⟨fun _ _ _ => rfl, fun _ h => Option.some.inj h ▸
    le_of_le_of_eq (by decide) (packSSa_codes (by decide) (by decide) (by decide) ..).1.symm⟩

theorem EncodedCell.vfpop (rs : SReg) (fa : FReg) : EncodedCell.Statement (.vfpop rs fa) :=
  ⟨fun _ _ h => by simp [Instr.wellFormed] at h, fun _ h => by simp [encode] at h⟩

end Sys2Proof.Laws
end

