-- ==== Sys2Proof/Laws/Results.lean ====
section
/-! SUPPORT. From what a shared operation answers to what an instruction computes: one lemma for each
shared operation, in the terms of Safety.lean. -/

namespace Sys2Proof.Machine

variable {s : State} {i : Instr} {m : MaskSel}

/-! ### Writing a register -/

/-- The elements of `vD` after a write of all of them. -/
theorem elementsAfter_setV (s : State) {t : State} {vd : VReg} {g : Nat → Elem}
    {writes : Nat → Prop} {value : Nat → Elem → Prop}
    (ht : ∀ k, t.velem vd k = (s.setV vd g).velem vd k)
    (hw : ∀ k, k < s.cfg.mvl → writes k → value k (g k))
    (hk : ∀ k, k < s.cfg.mvl → ¬ writes k → g k = s.velem vd k) :
    elementsAfter s t vd writes value := by
  intro k hlt
  refine ⟨?_, ?_, ?_⟩
  · rintro rfl; rw [ht]; simp
  · intro h0 h; rw [ht, State.velem_setV_self s h0 hlt]; exact hw k hlt h
  · intro h0 h; rw [ht, State.velem_setV_self s h0 hlt]; exact hk k hlt h

/-- The bits of `vF` after a write of all of them. -/
theorem flagsAfter_setF (s : State) {u t : State} {fd : FReg} {g : Nat → Bool}
    {writes keeps : Nat → Prop} {value : Nat → Bool → Prop} (hc : u.cfg = s.cfg)
    (ht : ∀ k, t.felem fd k = (u.setF fd g).felem fd k)
    (hw : ∀ k, k < s.cfg.mvl → writes k → value k (g k))
    (hk : ∀ k, k < s.cfg.mvl → keeps k → g k = s.felem fd k) :
    flagsAfter s t fd writes keeps value := by
  intro k hlt
  have hlt' : k < u.cfg.mvl := by rw [hc]; exact hlt
  refine ⟨?_, ?_, ?_, ?_⟩
  · rintro rfl; rw [ht]; simp
  · rintro rfl; rw [ht]; simp
  · intro h0 h1 h; rw [ht, State.felem_setF_self u h0 h1 hlt']; exact hw k hlt h
  · intro h0 h1 h; rw [ht, State.felem_setF_self u h0 h1 hlt']; exact hk k hlt h

/-! ### Shared operations -/

/-- An instruction that writes `vD` and then ends as an arithmetic instruction. -/
theorem completes_setV_finish {vd : VReg} {g : Nat → Elem} {writes : Nat → Prop}
    {value : Nat → Elem → Prop} (h : exec i s = (s.setV vd g).finish)
    (hw : ∀ k, k < s.cfg.mvl → writes k → value k (g k))
    (hk : ∀ k, k < s.cfg.mvl → ¬ writes k → g k = s.velem vd k) :
    completes i s { v := [vd], f := [16, 17] } fun t => elementsAfter s t vd writes value := by
  refine completes_intro s h rfl ?_ ?_
  · exact unchangedBut_comp (unchangedBut_setV s vd g) (unchangedBut_flagSideEffect _)
  · exact elementsAfter_setV s (g := g) (fun _ => rfl) hw hk

theorem computes_of_elementwise {vd : VReg} {a b : Source} {op : ElemOp}
    {value : Nat → Elem → Prop} (h : exec i s = s.elementwise m vd a b op)
    (hv : ∀ k, value k (s.elemResult op a b k)) : computes i s m vd value := by
  refine completes_setV_finish h (fun k _ hk => ?_) (fun k _ hk => ?_)
  · rw [if_pos hk]; exact hv k
  · rw [if_neg hk]

theorem compares_of_compare {fd : FReg} {a b : Source} {op : CmpOp} {value : Nat → Prop}
    (hf : reservedFlag fd = false) (h : exec i s = s.compare m fd a b op)
    (hv : ∀ k, op s.cfg.w ((s.source a k).setWidth s.cfg.w) ((s.source b k).setWidth s.cfg.w) = true ↔
      value k) : compares i s m fd value := by
  refine completes_intro s (h.trans ((compare_next s _ m fd a b op).mpr ⟨hf, rfl⟩)) rfl ?_ ?_
  · refine unchangedBut_mono (unchangedBut_comp (unchangedBut_flagSideEffect s)
      (unchangedBut_setF _ fd _)) (by simp [Frame.sub])
  · refine flagsAfter_setF s (u := s.flagSideEffect) rfl (fun _ => rfl) (fun k _ hk => ?_)
      (fun k _ hk => ?_)
    · rw [if_pos hk]; exact hv k
    · rw [if_neg (by simp [hk.1])]
      exact State.felem_flagSideEffect s hk.2.1 hk.2.2 k

/-! ### Codes -/

theorem hasCell_of {w : Word} {op opx func : Nat} (h : encode FieldLayout.r93 i = some w)
    (hc : FieldLayout.r93.op.get w.toNat = op ∧ FieldLayout.r93.opx.get w.toNat = opx ∧
      FieldLayout.r93.func.get w.toNat = func) : hasCell i op opx func := by
  refine ⟨w, h, ?_, ?_, ?_⟩
  · have := hc.1; simpa [BitField.get, FieldLayout.r93] using this
  · have := hc.2.1; simpa [BitField.get, FieldLayout.r93] using this
  · have := hc.2.2; simpa [BitField.get, FieldLayout.r93] using this

end Sys2Proof.Machine
end

