-- ==== Sys2Proof/Laws/Accesses.lean ====
section
/-! SUPPORT. What loads and stores of several VPs do: which store to a place stands, what stays as it
was, and when the checks stop an access (20_memory.md rules R65, R71; R210, R211, R230). -/

namespace Sys2Proof.Machine

/-! ### Folding stores -/

theorem Memory.readLE_congr {m m' : Memory} (n : Nat) : ∀ {a : Nat},
    (∀ b, a ≤ b → b < a + n → m.read b = m'.read b) → m.readLE a n = m'.readLE a n := by
  induction n with
  | zero => intro a _; rfl
  | succ n ih =>
    intro a h
    rw [Memory.readLE, Memory.readLE, h a (by omega) (by omega),
      ih fun b h1 h2 => h b (by omega) (by omega)]

/-- Bytes that no VP stores to stay as they were. -/
theorem foldl_writeLE_other (n : Nat) (addr data : Nat → Nat) (b : Nat) (vps : List Nat)
    (h : ∀ i ∈ vps, ¬ (addr i ≤ b ∧ b < addr i + n)) : ∀ m : Memory,
    Memory.read (vps.foldl (fun mem i => mem.writeLE (addr i) n (data i)) m) b = m.read b := by
  induction vps with
  | nil => intro m; rfl
  | cons i t ih =>
    intro m
    rw [List.foldl_cons, ih fun j hj => h j (by simp [hj]), Memory.read_writeLE,
      if_neg (h i (by simp))]

/-- Of the VPs that store to one place, the last in the order of the stores stands: it splits the
order into VPs before it and VPs that store elsewhere. -/
theorem exists_last {α : Type} (p : α → Prop) [DecidablePred p] (l : List α) :
    (∃ a ∈ l, p a) → ∃ pre j post, l = pre ++ j :: post ∧ p j ∧ ∀ x ∈ post, ¬ p x := by
  induction l with
  | nil => rintro ⟨a, ha, _⟩; simp at ha
  | cons b t ih =>
    rintro ⟨a, ha, pa⟩
    by_cases ht : ∃ a ∈ t, p a
    · obtain ⟨pre, j, post, e, hj, hp⟩ := ih ht
      exact ⟨b :: pre, j, post, by rw [e]; rfl, hj, hp⟩
    · rcases List.mem_cons.mp ha with rfl | ha
      · exact ⟨[], a, t, rfl, pa, fun x hx px => ht ⟨x, hx, px⟩⟩
      · exact absurd ⟨a, ha, pa⟩ ht

theorem readLE_foldl_last (n : Nat) (addr data : Nat → Nat) (pre : List Nat) (j : Nat)
    (post : List Nat) (m : Memory)
    (h : ∀ i ∈ post, ∀ b, addr j ≤ b → b < addr j + n → ¬ (addr i ≤ b ∧ b < addr i + n)) :
    Memory.readLE ((pre ++ j :: post).foldl (fun mem i => mem.writeLE (addr i) n (data i)) m)
      (addr j) n = data j % 256 ^ n := by
  rw [List.foldl_append, List.foldl_cons, Memory.readLE_congr n fun b h1 h2 =>
    foldl_writeLE_other n addr data b post (fun i hi => h i hi b h1 h2) _, Memory.readLE_writeLE]

/-- Two aligned accesses of one width meet only at equal addresses (R65, R71). -/
theorem aligned_disjoint {a b n : Nat} (ha : a % n = 0) (hb : b % n = 0) (h : a ≠ b) (x : Nat)
    (h1 : a ≤ x) (h2 : x < a + n) : ¬ (b ≤ x ∧ x < b + n) := by
  rintro ⟨h3, h4⟩
  obtain ⟨p, rfl⟩ := Nat.dvd_of_mod_eq_zero ha
  obtain ⟨q, rfl⟩ := Nat.dvd_of_mod_eq_zero hb
  have hn : 0 < n := by omega
  apply h
  have e1 : p < q + 1 := by
    by_contra hc
    have := Nat.mul_le_mul_left n (show q + 1 ≤ p by omega)
    rw [Nat.mul_add] at this; omega
  have e2 : q < p + 1 := by
    by_contra hc
    have := Nat.mul_le_mul_left n (show p + 1 ≤ q by omega)
    rw [Nat.mul_add] at this; omega
  rw [show p = q by omega]

theorem toNat_emod {a : Int} {n : Nat} (h : a % n = 0) (h0 : 0 ≤ a) : a.toNat % n = 0 := by
  have : ((a.toNat % n : Nat) : Int) = 0 := by rw [Int.natCast_emod, Int.toNat_of_nonneg h0, h]
  exact_mod_cast this

/-- What stands in memory after the stores of `vps` at legal addresses: at the place of every VP the
data of a VP that stores there, after which no VP of the order does; every other byte as before. -/
theorem storeElems_reads (s : State) (wd : Width) (va : VReg) (addr : Nat → Int) (vps : List Nat)
    (hl : ∀ i ∈ vps, legalAccess s.cfg (addr i) wd.bytes) :
    (∀ k ∈ vps, ∃ pre j post, vps = pre ++ j :: post ∧ addr j = addr k ∧
      (∀ x ∈ post, addr x ≠ addr k) ∧
      (s.storeElems wd va addr vps).readLE (addr k).toNat wd.bytes =
        (s.velem va j).toNat % 2 ^ wd.bits) ∧
    (∀ b, (∀ k ∈ vps, ¬ ((addr k).toNat ≤ b ∧ b < (addr k).toNat + wd.bytes)) →
      (s.storeElems wd va addr vps).read b = s.mem.read b) := by
  constructor
  · intro k hk
    obtain ⟨pre, j, post, e, hj, hp⟩ := exists_last (fun i => addr i = addr k) vps ⟨k, hk, rfl⟩
    refine ⟨pre, j, post, e, hj, hp, ?_⟩
    have hpow : 2 ^ wd.bits = 256 ^ wd.bytes := by cases wd <;> rfl
    rw [State.storeElems, e, ← hj, hpow]
    refine readLE_foldl_last wd.bytes (fun i => (addr i).toNat) (fun i => (s.velem va i).toNat) pre j
      post s.mem fun i hi b h1 h2 => ?_
    have lj := hl j (by rw [e]; simp)
    have li := hl i (by rw [e]; simp [hi])
    refine aligned_disjoint ?_ ?_ ?_ b h1 h2
    · exact toNat_emod lj.1 lj.2.1
    · exact toNat_emod li.1 li.2.1
    · have h0 := hp i hi; rw [← hj] at h0
      have := lj.2.1; have := li.2.1; omega
  · intro b hb
    exact foldl_writeLE_other wd.bytes (fun i => (addr i).toNat) _ b vps hb s.mem

/-- In an order that rises, the last VP that stores to a place is the highest one. -/
theorem rising_last {vps pre post : List Nat} {j : Nat} {p : Nat → Prop}
    (hs : vps.Pairwise (· < ·)) (e : vps = pre ++ j :: post) (hp : ∀ x ∈ post, ¬ p x) :
    ∀ l ∈ vps, p l → l ≤ j := by
  intro l hl pl
  rw [e] at hl hs
  rcases List.mem_append.mp hl with h | h
  · exact Nat.le_of_lt ((List.pairwise_append.mp hs).2.2 l h j (by simp))
  · rcases List.mem_cons.mp h with rfl | h
    · exact Nat.le_refl _
    · exact absurd pl (hp l h)

theorem activeVPs_rising (s : State) (m : MaskSel) : (s.activeVPs m).Pairwise (· < ·) :=
  List.Pairwise.filter _ List.pairwise_lt_range

/-! ### What a load and a store compute -/

theorem Memory.readLE_lt (m : Memory) (n : Nat) : ∀ a, m.readLE a n < 256 ^ n := by
  induction n with
  | zero => intro a; simp [Memory.readLE]
  | succ n ih =>
    intro a
    have := ih (a + 1)
    have := (m.read a).isLt
    rw [Memory.readLE, pow_succ]
    omega

/-- The extension of R66 keeps the value, signed or unsigned, where the VP is wide enough (R67). -/
theorem extendElem_wrapsTo (c : Config) (signed : Bool) (wd : Width) (raw : Nat)
    (hr : raw < 2 ^ wd.bits) : wrapsTo c (memoryValue signed wd raw) (extendElem c signed wd raw) := by
  have hw' := width_le c
  unfold wrapsTo extendElem memoryValue
  cases signed with
  | false =>
    simp only [Bool.false_eq_true, false_and, if_false]
    rw [elem_toNat, BitVec.toNat_setWidth, BitVec.toNat_ofNat, Nat.mod_eq_of_lt hr]
    push_cast; rfl
  | true =>
    simp only [true_and, if_true]
    rw [elem_toNat]
    have := wrapsTo_ofInt c (BitVec.ofNat wd.bits raw).toInt
    rw [BitVec.signExtend]
    unfold wrapsTo at this
    rw [elem_toNat] at this
    rw [this]
    congr 1
    rw [BitVec.toInt_eq_toNat_cond, BitVec.toNat_ofNat, Nat.mod_eq_of_lt hr]
    have hb : 2 ^ wd.bits = 2 * 2 ^ (wd.bits - 1) := by rw [← pow_succ']; congr 1; cases wd <;> rfl
    split_ifs <;> first | omega | (push_cast; rfl)

/-- The auto-increment of R212 on a state with the base and the increment of `s`. -/
theorem baseIncremented_autoIncrement {s u t : State} (vb : VBase) (vi : VInc)
    (hb : u.vbase = s.vbase) (hi : u.vinc = s.vinc)
    (ht : t.vbase = (u.autoIncrement vb vi).vbase) : baseIncremented s t vb vi := by
  unfold baseIncremented
  rw [ht]
  simp only [State.autoIncrement, regSet_get, if_true, hb, hi]
  rw [BitVec.toNat_add, BitVec.toInt_eq_toNat_bmod]
  push_cast
  rw [Int.bmod_def]
  split_ifs <;> omega

/-- A load completes on legal accesses and computes what R210 says. -/
theorem loads_of_load {s : State} {i : Instr} {wd : Width} {signed : Bool} {m : MaskSel} {vd : VReg}
    {vb : VBase} {addr : Nat → Int} {bases : List CReg} {post : State → Prop} (after : State → State)
    (hl : legalAccesses s wd m vb addr) (he : exec i s = s.load wd signed m vd vb addr after)
    (hpc : ∀ u : State, (after u).pc = u.pc) (hv : ∀ u : State, (after u).v = u.v)
    (hf : ∀ u, unchangedBut { c := bases } u (after u))
    (hp : ∀ g, post (after (s.setV vd g)).advance) : loads i s wd signed m vd bases addr post := by
  have hl' := (legalAccesses_iff s wd m vb addr).mpr hl
  refine completes_intro s
    (he.trans ((load_next s _ wd signed m vd vb addr after).mpr ⟨hl'.1, hl'.2, rfl⟩)) ?_ ?_ ?_
  · rw [hpc]; rfl
  · exact unchangedBut_mono (unchangedBut_comp (unchangedBut_setV s vd _) (hf _)) (by simp [Frame.sub])
  · refine ⟨elementsAfter_setV s (g := fun i =>
        if s.active m i then extendElem s.cfg signed wd (s.mem.readLE (addr i).toNat wd.bytes)
        else s.velem vd i) (fun k => ?_) (fun k _ hk => ?_) (fun k _ hk => ?_), hp _⟩
    · simp only [State.velem, State.advance, hv]
    · rw [if_pos hk]
      have hpow : 2 ^ wd.bits = 256 ^ wd.bytes := by cases wd <;> rfl
      exact extendElem_wrapsTo _ _ _ _ (hpow ▸ Memory.readLE_lt _ _ _)
    · rw [if_neg hk]

/-- A store completes on legal accesses that avoid the program text, in any order `vps` of the active
VPs; `stored k j` need hold of the last VP `j` of the order that stores to the place of `k`. -/
theorem stores_of_store {s : State} {i : Instr} {wd : Width} {m : MaskSel} {va : VReg} {vb : VBase}
    {addr : Nat → Int} {vps : List Nat} {bases : List CReg} {stored : Nat → Nat → Prop}
    {post : State → Prop} (after : State → State) (hl : legalAccesses s wd m vb addr)
    (hc : avoidsCode s wd.bytes m addr) (hperm : vps.Perm (s.activeVPs m))
    (he : exec i s = s.store wd m va vb addr vps after)
    (hpc : ∀ u : State, (after u).pc = u.pc) (hm : ∀ u : State, (after u).mem = u.mem)
    (hf : ∀ u, unchangedBut { c := bases } u (after u))
    (hst : ∀ k j pre post, vps = pre ++ j :: post → addr j = addr k →
      (∀ x ∈ post, addr x ≠ addr k) → s.active m k = true → k < s.cfg.mvl → stored k j)
    (hp : ∀ mem, post (after { s with mem := mem }).advance) :
    stores i s wd m va bases addr stored post := by
  have hl' := (legalAccesses_iff s wd m vb addr).mpr hl
  have hact : ∀ k, k ∈ vps ↔ k < s.cfg.mvl ∧ s.active m k = true := fun k => by
    rw [hperm.mem_iff, mem_activeVPs]
  obtain ⟨h1, h2⟩ := storeElems_reads s wd va addr vps fun k hk =>
    hl.2.2 k ((hact k).mp hk).1 ((hact k).mp hk).2
  refine completes_intro s (he.trans ((store_next s _ wd m va vb addr vps after).mpr
    ⟨hl'.1, fun k hk => hc k ((mem_activeVPs s m k).mp hk).1 ((mem_activeVPs s m k).mp hk).2, hl'.2,
      rfl⟩)) ?_ ?_ ?_
  · rw [hpc]
  · exact unchangedBut_mono (unchangedBut_comp (unchangedBut_mem s _) (hf _)) (by simp [Frame.sub])
  · refine ⟨fun k hk ha => ?_, fun a ha => ?_, hp _⟩
    · obtain ⟨pre, j, pst, e, hj, hx, hr⟩ := h1 k ((hact k).mpr ⟨hk, ha⟩)
      have hj' := (hact j).mp (by rw [e]; simp)
      refine ⟨j, hj'.1, hj'.2, hst k j pre pst e hj hx ha hk, ?_⟩
      show Memory.readLE (after _).mem _ _ = _
      rw [hm]; exact hr
    · show Memory.read (after _).mem _ = _
      rw [hm]
      exact h2 a fun k hk => ha k ((hact k).mp hk).1 ((hact k).mp hk).2

/-! ### The order of the stores of `vstxu` -/

theorem insertByKey_perm (key : Nat → Nat) (i : Nat) (l : List Nat) :
    (insertByKey key i l).Perm (i :: l) := by
  induction l with
  | nil => exact List.Perm.refl _
  | cons j t ih =>
    rw [insertByKey]
    split_ifs
    · exact List.Perm.refl _
    · exact (ih.cons j).trans (List.Perm.swap i j t)

theorem sortByKey_perm (key : Nat → Nat) (l : List Nat) : (sortByKey key l).Perm l := by
  induction l with
  | nil => exact List.Perm.refl _
  | cons i t ih => exact (insertByKey_perm key i _).trans (ih.cons i)

/-- The order of `vstxu` runs through the same VPs, each once (R71, R221). -/
theorem anyOrder_perm (s : State) (addr : Nat → Int) (vps : List Nat) :
    (s.anyOrder addr vps).Perm vps := by
  unfold State.anyOrder
  split_ifs
  · exact List.Perm.refl _
  · exact sortByKey_perm _ _

/-! ### The first fault -/

theorem activeVPs_findSome?_of_first (s : State) (m : MaskSel) {β : Type} {g : Nat → Option β}
    {k : Nat} {b : β} (hk : k < s.cfg.mvl) (ha : s.active m k = true) (hg : g k = some b)
    (hn : ∀ j, j < k → s.active m j = true → g j = none) :
    (s.activeVPs m).findSome? g = some b := by
  rw [List.findSome?_eq_some_iff]
  refine ⟨(List.range k).filter (s.active m),
    k, ((List.range' (k + 1) (s.cfg.mvl - (k + 1))).filter (s.active m)), ?_, hg, ?_⟩
  · rw [State.activeVPs]
    have e : List.range s.cfg.mvl = List.range k ++ k :: List.range' (k + 1) (s.cfg.mvl - (k + 1)) := by
      rw [← List.range'_succ, List.range_eq_range', List.range_eq_range',
        show s.cfg.mvl = k + (s.cfg.mvl - (k + 1) + 1) by omega, ← List.range'_append_1]
      congr 2 <;> omega
    rw [e, List.filter_append, List.filter_cons_of_pos ha]
  · intro j hj
    obtain ⟨h1, h2⟩ := List.mem_filter.mp hj
    exact hn j (List.mem_range.mp h1) h2

/-- The fault of one access, by the reason (R211). -/
theorem accessFault_reason (c : Config) (addr : Int) (n : Nat) :
    (addr % n ≠ 0 → accessFault c addr n = some (.misaligned addr n)) ∧
    (addr % n = 0 → addr < 0 ∨ 2 ^ 32 < addr + n → accessFault c addr n = some (.addrRange addr)) ∧
    (addr % n = 0 → 0 ≤ addr → addr + n ≤ 2 ^ 32 →
      (∃ j, j < n ∧ plainByte c (addr.toNat + j) = false) →
      accessFault c addr n = some (.memUnmapped addr)) := by
  refine ⟨fun h => if_pos h, fun h h' => ?_, fun h h0 h1 ⟨j, hj, hp⟩ => ?_⟩
  · rw [accessFault, if_neg (by simpa using h), if_pos h']
  · rw [accessFault, if_neg (by simpa using h), if_neg (by omega), if_neg]
    simp only [List.all_eq_true, List.mem_range, not_forall]
    exact ⟨j, hj, by simp [hp]⟩

/-! ### Flag registers in memory -/

/-- The `K` bytes of `vfld` and `vfst` hold every flag below `VL` (R225, R226). -/
theorem vlen_le_flagBytes (s : State) : s.vlen ≤ 8 * s.flagBytes := by
  unfold State.flagBytes
  obtain ⟨q, hq⟩ : ∃ q, s.cfg.w = 8 * q := by
    unfold Config.w; cases s.cfg.vpuw
    exacts [⟨1, rfl⟩, ⟨2, rfl⟩, ⟨4, rfl⟩]
  have h8 := width_ge s.cfg
  rw [hq] at h8 ⊢
  rw [Nat.mul_div_cancel_left _ (by omega)]
  have h1 := Nat.div_add_mod (s.vlen + 8 * q - 1) (8 * q)
  have h2 := Nat.mod_lt (s.vlen + 8 * q - 1) (show 0 < 8 * q by omega)
  have h3 : 8 * ((s.vlen + 8 * q - 1) / (8 * q) * q) = 8 * q * ((s.vlen + 8 * q - 1) / (8 * q)) := by
    ring
  omega

/-- A byte after a run of bytes is written. -/
theorem read_foldl_write (base : Nat) (data : Nat → Byte) (n : Nat) (m : Memory) (b : Nat) :
    Memory.read ((List.range n).foldl (fun mem j => mem.write (base + j) (data j)) m) b =
      if base ≤ b ∧ b < base + n then data (b - base) else m.read b := by
  induction n with
  | zero => rw [if_neg (by omega)]; rfl
  | succ n ih =>
    rw [List.range_succ, List.foldl_append, List.foldl_cons, List.foldl_nil, Memory.read_write, ih]
    by_cases h : b = base + n
    · rw [if_pos h, if_pos (by omega), h]; congr; omega
    · rw [if_neg h]
      by_cases h' : base ≤ b ∧ b < base + n
      · rw [if_pos h', if_pos (by omega)]
      · rw [if_neg h', if_neg (by omega)]

/-- Bit `b` of a byte that `vfst` writes (R226). -/
theorem getLsbD_flagStoreByte (s : State) (fd : FReg) (j b : Nat) (hb : b < 8) :
    (s.flagStoreByte fd j).getLsbD b = s.flagStoreBit fd (8 * j + b) := by
  rw [State.flagStoreByte, BitVec.getLsbD_ofFnLE, dif_pos hb]

/-! ### Local memory -/

/-- Distinct words have distinct keys (R41). -/
theorem localKey_inj {b b' a a' : Nat} (ha : a < 2 ^ 32) (ha' : a' < 2 ^ 32) :
    localKey b a = localKey b' a' ↔ b = b' ∧ a = a' := by
  unfold localKey
  constructor
  · intro h; constructor <;> omega
  · rintro ⟨rfl, rfl⟩; rfl

theorem localAddr_lt (s : State) (va : VReg) (i : Nat) : s.localAddr va i < 2 ^ 32 := by
  unfold State.localAddr
  rw [BitVec.toNat_setWidth]
  exact Nat.lt_of_le_of_lt (Nat.mod_le _ _) (s.velem va i).isLt

/-- A word of the local memory after the stores of some VPs: the data of the last VP that stores
there, or as before (R224). -/
theorem cellGet_foldl_cellPut {α : Type} (key : Nat → Nat) (data : Nat → α) (k : Nat) (vps : List Nat) :
    ∀ l : List (Nat × α),
    cellGet k (vps.foldl (fun l i => cellPut (key i) (data i) l) l) =
      (((vps.filter fun i => key i == k).getLast?).map data).or (cellGet k l) := by
  induction vps with
  | nil => intro l; simp
  | cons i t ih =>
    intro l
    rw [List.foldl_cons, ih, cellGet_cellPut, List.filter_cons]
    by_cases h : key i = k
    · subst h
      simp only [beq_self_eq_true, if_true]
      cases hl : (t.filter fun j => key j == key i) with
      | nil => simp
      | cons b u => simp [List.getLast?_cons]
    · rw [if_neg (Ne.symm h), if_neg (by simpa using h)]

end Sys2Proof.Machine
end

