-- ==== Sys2Proof/Laws/Accumulators.lean ====
section
/-! SUPPORT. The accumulators: the sums that a multiply-accumulate adds and that a copy writes, as sums
over the VPs and over the accumulators (R38, R163, R165). -/

namespace Sys2Proof.Machine

theorem sum_map_filter (l : List Nat) (p : Nat → Bool) (f : Nat → Int) :
    ((l.filter p).map f).sum = (l.map fun k => if p k = true then f k else 0).sum := by
  induction l with
  | nil => rfl
  | cons a t ih => by_cases h : p a = true <;> simp [h, ih]

theorem sum_map_range (n : Nat) (f : Nat → Int) :
    ((List.range n).map f).sum = ∑ k ∈ Finset.range n, f k := by
  induction n with
  | zero => rfl
  | succ n ih => rw [List.range_succ, Finset.sum_range_succ, ← ih]; simp

/-- What accumulator `k` adds: the products of the active VPs that feed it (R38, R163). -/
theorem sum_feeders (s : State) (m : MaskSel) (k : Nat) (f : Nat → Int) :
    ((s.feeders m k).map f).sum = ∑ i ∈ Finset.range s.cfg.mvl,
      if s.active m i = true ∧ accOf s.cfg i = k then f i else 0 := by
  rw [State.feeders, State.activeVPs, List.filter_filter, sum_map_filter, sum_map_range]
  refine Finset.sum_congr rfl fun i _ => ?_
  congr 1
  simp [and_comm]

theorem wrapAcc_cast (c : Config) (z : Int) : (wrapAcc c z : Int) = z % 2 ^ c.accW := by
  rw [wrapAcc, Int.toNat_of_nonneg (Int.emod_nonneg _ (by positivity))]

/-- The partial result of chain `j` (R165). -/
theorem chainSum_cast (s : State) (j : Nat) : (s.chainSum j : Int) =
    (∑ k ∈ Finset.range (accCount s.cfg), if accChain s.cfg k = j then (s.accValue k : Int) else 0) %
      2 ^ s.cfg.accW := by
  rw [State.chainSum, wrapAcc_cast]
  congr 1
  rw [Nat.cast_list_sum, List.map_map, chainMembers, sum_map_filter, sum_map_range]
  refine Finset.sum_congr rfl fun i _ => ?_
  simp

/-- Every accumulator belongs to one of the `P` chains (R38). -/
theorem accChain_lt (c : Config) (k : Nat) (hm : c.macl ≠ 0) (hk : k < accCount c) :
    accChain c k < partialCount c := by
  unfold accChain partialCount accCount at *
  rw [if_neg hm] at hk
  split_ifs with h
  · omega
  · have h1 : (c.nAcc - 1) / c.macl + 1 = (c.nAcc + c.macl - 1) / c.macl := by
      rw [← Nat.add_div_right _ (by omega)]
      congr 1
      omega
    rw [← h1]
    exact Nat.lt_succ_of_le (Nat.div_le_div_right (by omega))

theorem unchangedBut_copyPartials (s : State) (vd : VReg) (g : Nat → Elem) :
    unchangedBut { v := [vd], c := [0] } s (s.copyPartials vd g) :=
  unchangedBut_comp (unchangedBut_setV s vd _) (unchangedBut_setVl _ _)

/-- The elements of `vD` after a copy from the accumulators: the first `P` are copied (R165). -/
theorem elementsAfter_copyPartials (s : State) {t : State} {vd : VReg} {g : Nat → Elem}
    {value : Nat → Elem → Prop} (ht : ∀ k, t.velem vd k = (s.copyPartials vd g).velem vd k)
    (hg : ∀ j, value j (g j)) :
    elementsAfter s t vd (fun j => j < partialCount s.cfg) value := by
  refine elementsAfter_setV s ht (fun k _ hk => ?_) (fun k _ hk => ?_)
  · rw [if_pos hk]; exact hg k
  · rw [if_neg hk]

end Sys2Proof.Machine
end

