-- ==== Sys2Proof/Laws/Searches.lean ====
section
/-! SUPPORT. Counting and searching: the first and the last set bit of a flag register (R270, R275),
and the places of the unmasked elements in `vcomp` and `vexpand` (R247, R248). -/

namespace Sys2Proof.Machine

/-! ### Flag registers -/

theorem mem_setBits (s : State) (f : FReg) (k : Nat) :
    k ∈ s.setBits f ↔ k < s.vlen ∧ s.felem f k = true := by
  simp [State.setBits]

theorem setBits_rising (s : State) (f : FReg) : (s.setBits f).Pairwise (· < ·) :=
  List.Pairwise.filter _ List.pairwise_lt_range

theorem length_setBits (s : State) (f : FReg) : (s.setBits f).length =
    ((Finset.range s.vlen).filter fun k => s.felem f k = true).card := by
  unfold State.setBits
  rw [← List.toFinset_card_of_nodup (List.Nodup.filter _ List.nodup_range)]
  congr 1
  ext k
  simp

theorem firstSet_isFirstSet (s : State) (f : FReg) : isFirstSet s f (s.firstSet f) := by
  have hs := setBits_rising s f
  have hm := mem_setBits s f
  unfold State.firstSet
  cases hl : s.setBits f with
  | nil =>
    rw [hl] at hm
    refine ⟨fun j hj => ?_, .inr rfl⟩
    simp only [List.head?_nil, Option.getD_none] at hj
    have := (hm j).not.mp (by simp)
    simpa [hj] using this
  | cons a t =>
    rw [hl] at hm hs
    have ha := (hm a).mp (by simp)
    refine ⟨fun j hj => ?_, .inl (by simpa using ha)⟩
    simp only [List.head?_cons, Option.getD_some] at hj
    by_contra hc
    have := (hm j).mpr ⟨by omega, by simpa using hc⟩
    rcases List.mem_cons.mp this with rfl | h
    · omega
    · have := (List.pairwise_cons.mp hs).1 j h
      omega

theorem lastSet_isLastSet (s : State) (f : FReg) : isLastSet s f (s.lastSet f) := by
  have hs := setBits_rising s f
  have hm := mem_setBits s f
  unfold State.lastSet
  rcases List.eq_nil_or_concat (s.setBits f) with hl | ⟨t, a, hl⟩
  · rw [hl] at hm ⊢
    refine .inr ⟨rfl, fun j hj => ?_⟩
    have := (hm j).not.mp (by simp)
    simpa [hj] using this
  · rw [hl] at hm hs ⊢
    rw [List.concat_eq_append] at hm hs ⊢
    have ha := (hm a).mp (by simp)
    refine .inl ⟨by simpa using ha.1, by simpa using ha.2, fun j hj hv => ?_⟩
    simp only [List.getLast?_append, List.getLast?_singleton, Option.some_or, Option.getD_some] at hj
    by_contra hc
    have := (hm j).mpr ⟨hv, by simpa using hc⟩
    rcases List.mem_append.mp this with h | h
    · have := (List.pairwise_append.mp hs).2.2 j h a (by simp)
      omega
    · simp only [List.mem_singleton] at h
      omega

/-! ### Unmasked elements -/

theorem activeBelow_eq (s : State) (m : MaskSel) (k : Nat) :
    s.activeBelow m k = unmaskedBelow s m k := by
  unfold State.activeBelow unmaskedBelow
  rw [← List.toFinset_card_of_nodup (List.Nodup.filter _ List.nodup_range)]
  congr 1
  ext j
  simp

/-- Place `k` of the active VPs below `n` holds the one that has `k` active VPs below it. -/
theorem getElem?_active (s : State) (m : MaskSel) (n : Nat) : ∀ k i,
    ((List.range n).filter (s.active m))[k]? = some i →
      i < n ∧ s.active m i = true ∧ unmaskedBelow s m i = k := by
  induction n with
  | zero => intro k i h; simp at h
  | succ n ih =>
    intro k i h
    rw [List.range_succ, List.filter_append, List.getElem?_append] at h
    split_ifs at h with hk
    · obtain ⟨a, b, c⟩ := ih k i h
      exact ⟨by omega, b, c⟩
    · simp only [List.filter_cons, List.filter_nil] at h
      split_ifs at h with ha
      · have hlen : ((List.range n).filter (s.active m)).length = unmaskedBelow s m n :=
          activeBelow_eq s m n
        rw [hlen] at h hk
        by_cases e : k - unmaskedBelow s m n = 0
        · rw [e] at h
          simp only [List.getElem?_cons_zero, Option.some.injEq] at h
          subst h
          exact ⟨by omega, ha, by omega⟩
        · rw [List.getElem?_eq_none (by simp; omega)] at h
          cases h
      · simp at h

theorem length_activeVPs (s : State) (m : MaskSel) :
    (s.activeVPs m).length = unmaskedBelow s m s.cfg.mvl := activeBelow_eq s m s.cfg.mvl

/-! ### The shapes of the register files -/

theorem vectorsFit_setV {s : State} (h : vectorsFit s) {vd : VReg} {g : Nat → Elem}
    (fit : ∀ k, k < s.cfg.mvl → fits s.cfg (g k)) : vectorsFit (s.setV vd g) := by
  intro r
  show ((s.setV vd g).v.get r).length = _ ∧ ∀ e ∈ (s.setV vd g).v.get r, _
  unfold State.setV
  simp only
  split_ifs with h0
  · exact h r
  · rw [regSet_get]
    split_ifs with hr
    · refine ⟨by simp, fun e he => ?_⟩
      obtain ⟨k, hk, rfl⟩ := List.mem_map.mp he
      exact fit k (List.mem_range.mp hk)
    · exact h r

theorem flagsFit_setF {s : State} (h : flagsFit s) {fd : FReg} {g : Nat → Bool} :
    flagsFit (s.setF fd g) := by
  intro r
  show ((s.setF fd g).f.get r).length = _
  unfold State.setF
  simp only
  split_ifs with h0
  · exact h r
  · rw [regSet_get]
    split_ifs with hr
    · simp
    · exact h r

theorem flagsFit_flagSideEffect {s : State} (h : flagsFit s) : flagsFit s.flagSideEffect := by
  intro r
  show ((regSet (regSet s.f 16 _) 17 _).get r).length = _
  rw [regSet_get]
  split_ifs with hr
  · simp
  · rw [regSet_get]
    split_ifs with hr
    · simp
    · exact h r

end Sys2Proof.Machine
end

