-- ==== Sys2Proof/Laws/Inversion.lean ====
section
/-! SUPPORT. Inversion: what an instruction can do if it answers a next state, said once for every
instruction. `exec_effect` is the lemma that statements about all instructions start from. -/

namespace Sys2Proof.Machine

/-! ### Elements that fit -/

theorem fits_velem {s : State} (h : vectorsFit s) (r : VReg) (k : Nat) : fits s.cfg (s.velem r k) := by
  unfold State.velem fits
  split_ifs
  · simp
  · rw [List.getD_eq_getElem?_getD]
    cases hk : (s.v.get r)[k]? with
    | none => simp
    | some e => exact (h r).2 e (List.mem_of_getElem? hk)

theorem fits_truncElem (c : Config) (a : BitVec 32) : fits c (truncElem c a) := fits_elem c _

theorem fits_source {s : State} (h : vectorsFit s) (o : Source) (k : Nat) :
    fits s.cfg (s.source o k) := by
  cases o with
  | vec r => exact fits_velem h r k
  | scalar r => exact fits_truncElem _ _

theorem fits_elemResult (s : State) (op : ElemOp) (a b : Source) (k : Nat) :
    fits s.cfg (s.elemResult op a b k) := fits_elem s.cfg _

theorem fits_extendElem (c : Config) (signed : Bool) (wd : Width) (a : Nat) :
    fits c (extendElem c signed wd a) := by
  unfold extendElem
  split_ifs <;> exact fits_elem c _

theorem fits_localRead {s : State} (h : localMemoryFits s) (i a : Nat) :
    fits s.cfg ((s.localRead i a).getD 0) := by
  cases hr : s.localRead i a with
  | none => simp [fits]
  | some e => exact (h.2 _ (cellGet_mem hr)).2

theorem active_lt {s : State} {m : MaskSel} {k : Nat} (h : s.active m k = true) : k < s.vlen := by
  simp only [State.active, Bool.and_eq_true, decide_eq_true_eq] at h
  exact h.1

/-! ### What an instruction can do -/

/-- The ways an instruction goes to a next state: which update it makes, and what that update keeps.
`fit` says that the elements written have `W` bits, `beyond` that the elements from `VL` on are
written back as they were. -/
inductive Effect (i : Instr) (s : State) : State → Prop
  /-- Opcode 0x3D, or 0x3E with OPX 0: a vector register, and then the side effect of R27. -/
  | vector (vd : VReg) (g : Nat → Elem)
      (fit : vectorsFit s → ∀ k, k < s.cfg.mvl → fits s.cfg (g k))
      (beyond : reachesBeyondVl i = false → ∀ k, s.vlen ≤ k → g k = s.velem vd k) :
      Effect i s (s.setV vd g).flagSideEffect.advance
  /-- `vext.vs`, `vextu.vs`. -/
  | extract (rs : SReg) (a : Word) (dest : scalarDestination i = some rs) :
      Effect i s (s.setX rs a).flagSideEffect.advance
  /-- The multiply-accumulate instructions. -/
  | accumulate (acc : List Accumulator) (uses : usesAccumulators i = true)
      (fit : acc.length = accCount s.cfg ∧ ∀ a ∈ acc, a.value < 2 ^ s.cfg.accW) :
      Effect i s (State.flagSideEffect { s with acc := acc }).advance
  /-- `vccacc`, `vxccacc`. -/
  | copy (vd : VReg) (g : Nat → Elem) (uses : usesAccumulators i = true)
      (beyond : reachesBeyondVl i = true) (sets : setsVl i = true)
      (avail : macAvailable s.cfg = true) (fit : ∀ k, fits s.cfg (g k)) :
      Effect i s (s.copyPartials vd g).flagSideEffect.advance
  /-- `vcczacc`, `vxcczacc`. -/
  | copyZero (vd : VReg) (g : Nat → Elem) (uses : usesAccumulators i = true)
      (beyond : reachesBeyondVl i = true) (sets : setsVl i = true)
      (avail : macAvailable s.cfg = true) (fit : ∀ k, fits s.cfg (g k)) :
      Effect i s (s.copyPartials vd g).zeroAccumulators.flagSideEffect.advance
  /-- A compare. -/
  | compare (fd : FReg) (g : Nat → Bool) : Effect i s (s.flagSideEffect.setF fd g).advance
  /-- A flag instruction that writes a flag register. -/
  | flag (fd : FReg) (g : Nat → Bool) : Effect i s (s.setF fd g).advance
  /-- A flag instruction that leaves free values. -/
  | flagDraw (fd : FReg) (g : Nat → Bool) : Effect i s (s.setF fd g).useDraws.advance
  /-- `vfld`. -/
  | flagLoad (fd : FReg) (g : Nat → Bool) (vb : VBase) (vi : VInc) :
      Effect i s ((s.setF fd g).autoIncrement vb vi).useDraws.advance
  /-- A flag instruction that writes a scalar register, and `vmcts`. -/
  | scalar (rs : SReg) (a : Word) (dest : scalarDestination i = some rs) :
      Effect i s (s.setX rs a).advance
  /-- `vmstc`. -/
  | control (vc : CReg) (a : Word) (sets : setsVl i = (vc == 0))
      (legal : vc = 0 → a.toNat ≤ s.cfg.mvl) : Effect i s (s.setCreg vc a).advance
  /-- A load, from main or from local memory, without auto-increment. -/
  | load (vd : VReg) (g : Nat → Elem)
      (fit : vectorsFit s → localMemoryFits s → ∀ k, k < s.cfg.mvl → fits s.cfg (g k))
      (beyond : ∀ k, s.vlen ≤ k → g k = s.velem vd k) : Effect i s (s.setV vd g).advance
  /-- A load with auto-increment. -/
  | loadIncrement (vd : VReg) (g : Nat → Elem) (vb : VBase) (vi : VInc)
      (fit : vectorsFit s → ∀ k, k < s.cfg.mvl → fits s.cfg (g k))
      (beyond : ∀ k, s.vlen ≤ k → g k = s.velem vd k) :
      Effect i s ((s.setV vd g).autoIncrement vb vi).advance
  /-- A store without auto-increment. -/
  | store (mem : Memory) (stores : storesToMemory i = true)
      (fit : memoryFits s → memoryFits { s with mem := mem }) :
      Effect i s (State.advance { s with mem := mem })
  /-- `vstxu`. -/
  | storeDraw (mem : Memory) (stores : storesToMemory i = true)
      (fit : memoryFits s → memoryFits { s with mem := mem }) :
      Effect i s (State.useDraws { s with mem := mem }).advance
  /-- A store with auto-increment. -/
  | storeIncrement (mem : Memory) (vb : VBase) (vi : VInc) (stores : storesToMemory i = true)
      (fit : memoryFits s → memoryFits { s with mem := mem }) :
      Effect i s (State.autoIncrement { s with mem := mem } vb vi).advance
  /-- `vfst`. -/
  | flagStore (mem : Memory) (vb : VBase) (vi : VInc) (stores : storesToMemory i = true)
      (fit : memoryFits s → memoryFits { s with mem := mem }) :
      Effect i s (State.autoIncrement { s with mem := mem } vb vi).useDraws.advance
  /-- A store to the local memory. -/
  | localStore (lmem : LocalMemory) (stores : storesToLocalMemory i = true)
      (fit : localMemoryFits s → localMemoryFits { s with lmem := lmem }) :
      Effect i s (State.advance { s with lmem := lmem })

variable {i : Instr} {s t : State}

theorem effect_elementwise {m : MaskSel} {vd : VReg} {a b : Source} {op : ElemOp}
    (h : s.elementwise m vd a b op = .next t) : Effect i s t := by
  rw [elementwise_next] at h
  subst h
  refine .vector vd _ (fun hv k _ => ?_) fun _ k hk => ?_
  · show fits _ (if _ then _ else _)
    split_ifs
    · exact fits_elemResult ..
    · exact fits_velem hv vd k
  · exact if_neg fun ha => by have := active_lt ha; omega

theorem effect_compare {m : MaskSel} {fd : FReg} {a b : Source} {op : CmpOp}
    (h : s.compare m fd a b op = .next t) : Effect i s t := by
  rw [compare_next] at h
  rw [h.2]
  exact .compare ..

theorem effect_merge {m : MaskSel} {vd : VReg} {a b : Source} (h : s.merge m vd a b = .next t) :
    Effect i s t := by
  rw [merge_next] at h
  subst h
  refine .vector vd _ (fun hv k _ => ?_) fun _ k hk => ?_
  · show fits _ (if _ then _ else _)
    split_ifs
    · exact fits_source hv b k
    · exact fits_source hv a k
    · exact fits_velem hv vd k
  · exact if_neg (by omega)

theorem effect_multiplyAccumulate {signed : Bool} {m : MaskSel} {a b : Source}
    (hu : usesAccumulators i = true) (h : s.multiplyAccumulate signed m a b = .next t) :
    Effect i s t := by
  rw [multiplyAccumulate_next] at h
  rw [h.2]
  refine .accumulate _ hu ⟨by simp, fun c hc => ?_⟩
  obtain ⟨k, -, rfl⟩ := List.mem_map.mp hc
  show wrapAcc _ _ < _
  have h1 := Int.emod_nonneg (s.accValue k + ((s.feeders m k).map (s.macProduct signed a b)).sum : Int)
    (show (2 ^ s.cfg.accW : Int) ≠ 0 by positivity)
  have h2 := Int.emod_lt_of_pos (s.accValue k + ((s.feeders m k).map (s.macProduct signed a b)).sum : Int)
    (show (0 : Int) < 2 ^ s.cfg.accW by positivity)
  unfold wrapAcc
  zify
  rw [Int.toNat_of_nonneg h1]
  exact h2

theorem fits_firstClearing (g : Nat → Elem) (hg : ∀ k, fits s.cfg (g k)) (k : Nat) :
    fits s.cfg (s.firstClearing g k) := by
  unfold State.firstClearing
  split_ifs
  · exact hg k
  · exact fits_truncElem ..

theorem effect_flagLoop {fd : FReg} {named : List FReg} {g : Nat → Bool}
    (h : s.flagLoop fd named g = .next t) : Effect i s t := by
  rw [flagLoop_next] at h
  rw [h.2]
  exact .flag ..

theorem effect_flagScan {fd fa : FReg} {g : Nat → Nat → Bool}
    (h : s.flagScan fd fa g = .next t) : Effect i s t := by
  rw [flagScan_next] at h
  rw [h.2]
  exact .flagDraw ..

theorem effect_flagSearch {rs : SReg} {fa : FReg} {n : Nat} (hd : scalarDestination i = some rs)
    (h : s.flagSearch rs fa n = .next t) : Effect i s t := by
  rw [flagSearch_next] at h
  rw [h.2]
  exact .scalar _ _ hd

theorem load_fit {wd : Width} {signed : Bool} {m : MaskSel} {vd : VReg} {addr : Nat → Int}
    (hv : vectorsFit s) (k : Nat) :
    fits s.cfg (if s.active m k then extendElem s.cfg signed wd (s.mem.readLE (addr k).toNat wd.bytes)
      else s.velem vd k) := by
  split_ifs
  · exact fits_extendElem ..
  · exact fits_velem hv vd k

theorem effect_load {wd : Width} {signed : Bool} {m : MaskSel} {vd : VReg} {vb : VBase}
    {addr : Nat → Int} (h : s.load wd signed m vd vb addr id = .next t) : Effect i s t := by
  rw [load_next] at h
  rw [h.2.2]
  exact .load vd _ (fun hv _ k _ => load_fit hv k) fun k hk =>
    if_neg fun ha => by have := active_lt ha; omega

theorem effect_loadIncrement {wd : Width} {signed : Bool} {m : MaskSel} {vd : VReg} {vb : VBase}
    {vi : VInc} {addr : Nat → Int}
    (h : s.load wd signed m vd vb addr (·.autoIncrement vb vi) = .next t) : Effect i s t := by
  rw [load_next] at h
  rw [h.2.2]
  exact .loadIncrement vd _ vb vi (fun hv k _ => load_fit hv k) fun k hk =>
    if_neg fun ha => by have := active_lt ha; omega

/-- Stores at legal addresses keep the form of main memory (R61). -/
theorem memoryFits_storeElems {wd : Width} {va : VReg} {addr : Nat → Int} {vps : List Nat}
    (hl : ∀ k ∈ vps, legalAccess s.cfg (addr k) wd.bytes) (h : memoryFits s) :
    memoryFits { s with mem := s.storeElems wd va addr vps } := by
  refine ⟨Memory.wf_foldl _ (fun m k hm => Memory.wf_writeLE _ hm _ _) vps h.1, ?_⟩
  have key : ∀ (l : List Nat) (m : Memory), (∀ k ∈ l, legalAccess s.cfg (addr k) wd.bytes) →
      (∀ c ∈ m, plainByte s.cfg c.1 = true) →
      ∀ c ∈ l.foldl (fun mem k => mem.writeLE (addr k).toNat wd.bytes (s.velem va k).toNat) m,
        plainByte s.cfg c.1 = true := by
    intro l
    induction l with
    | nil => intro m _ hm; exact hm
    | cons k u ih =>
      intro m hk hm
      refine ih _ (fun j hj => hk j (by simp [hj])) fun c hc => ?_
      rcases Memory.mem_writeLE _ hc with hc | hc
      · have := (hk k (by simp)).2.2.2 (c.1 - (addr k).toNat) (by omega)
        rwa [show (addr k).toNat + (c.1 - (addr k).toNat) = c.1 by omega] at this
      · exact hm c hc
  exact key vps s.mem hl h.2

theorem store_fit {wd : Width} {m : MaskSel} {va : VReg} {vb : VBase} {addr : Nat → Int}
    {order : List Nat} (hp : order.Perm (s.activeVPs m))
    (hf : s.accessFaults vb wd.bytes wd.bytes (s.activeVPs m) addr = none) (h : memoryFits s) :
    memoryFits { s with mem := s.storeElems wd va addr order } :=
  memoryFits_storeElems (fun k hk => ((accessFaults_none ..).mp hf).2 k (hp.mem_iff.mp hk)) h

theorem effect_store {wd : Width} {m : MaskSel} {va : VReg} {vb : VBase} {addr : Nat → Int}
    (hs : storesToMemory i = true) (h : s.store wd m va vb addr (s.activeVPs m) id = .next t) :
    Effect i s t := by
  rw [store_next] at h
  rw [h.2.2.2]
  exact .store _ hs (store_fit (List.Perm.refl _) h.2.2.1)

theorem effect_storeIncrement {wd : Width} {m : MaskSel} {va : VReg} {vb : VBase} {vi : VInc}
    {addr : Nat → Int} (hs : storesToMemory i = true)
    (h : s.store wd m va vb addr (s.activeVPs m) (·.autoIncrement vb vi) = .next t) :
    Effect i s t := by
  rw [store_next] at h
  rw [h.2.2.2]
  exact .storeIncrement _ vb vi hs (store_fit (List.Perm.refl _) h.2.2.1)

theorem effect_storeAny {wd : Width} {m : MaskSel} {va : VReg} {vb : VBase} {addr : Nat → Int}
    (hs : storesToMemory i = true)
    (h : s.store wd m va vb addr (s.anyOrder addr (s.activeVPs m)) (·.useDraws) = .next t) :
    Effect i s t := by
  rw [store_next] at h
  rw [h.2.2.2]
  exact .storeDraw _ hs (store_fit (anyOrder_perm ..) h.2.2.1)

theorem effect_localStore {m : MaskSel} {va : VReg} {b : Source}
    (hs : storesToLocalMemory i = true) (h : s.localStore m va b = .next t) : Effect i s t := by
  rw [localStore_next] at h
  obtain ⟨-, -, hr, rfl⟩ := h
  refine .localStore _ hs fun hl => ?_
  have key : ∀ (l : List Nat) (lm : LocalMemory), (∀ k ∈ l, s.localAddr va k < localWords s.cfg) →
      localMemoryFits { s with lmem := lm } →
      localMemoryFits { s with lmem := State.localStores { s with lmem := lm } va b l } := by
    intro l
    induction l with
    | nil => intro lm _ h; exact h
    | cons k u ih =>
      intro lm hk h
      refine ih _ (fun j hj => hk j (by simp [hj])) ⟨risingKeys_cellPut _ _ h.1, fun c hc => ?_⟩
      rcases mem_cellPut hc with rfl | hc
      · refine ⟨?_, fits_truncElem ..⟩
        have := hk k (by simp)
        have := localAddr_lt s va k
        show localKey (localBlock s.cfg k) (s.localAddr va k) % 2 ^ 32 < localWords s.cfg
        unfold localKey
        omega
      · exact h.2 c hc
  exact key _ _ hr hl

/-! ### Every instruction -/

theorem effect_vaddVV (m : MaskSel) (vd va vb : VReg)
    (h : exec (.vaddVV m vd va vb) s = .next t) : Effect (.vaddVV m vd va vb) s t :=
  effect_elementwise h

theorem effect_vsubVV (m : MaskSel) (vd va vb : VReg)
    (h : exec (.vsubVV m vd va vb) s = .next t) : Effect (.vsubVV m vd va vb) s t :=
  effect_elementwise h

theorem effect_vmacVV (m : MaskSel) (va vb : VReg)
    (h : exec (.vmacVV m va vb) s = .next t) : Effect (.vmacVV m va vb) s t :=
  effect_multiplyAccumulate rfl h

theorem effect_vandVV (m : MaskSel) (vd va vb : VReg)
    (h : exec (.vandVV m vd va vb) s = .next t) : Effect (.vandVV m vd va vb) s t :=
  effect_elementwise h

theorem effect_vorVV (m : MaskSel) (vd va vb : VReg)
    (h : exec (.vorVV m vd va vb) s = .next t) : Effect (.vorVV m vd va vb) s t :=
  effect_elementwise h

theorem effect_vxorVV (m : MaskSel) (vd va vb : VReg)
    (h : exec (.vxorVV m vd va vb) s = .next t) : Effect (.vxorVV m vd va vb) s t :=
  effect_elementwise h

theorem effect_vadduVV (m : MaskSel) (vd va vb : VReg)
    (h : exec (.vadduVV m vd va vb) s = .next t) : Effect (.vadduVV m vd va vb) s t :=
  effect_elementwise h

theorem effect_vsubuVV (m : MaskSel) (vd va vb : VReg)
    (h : exec (.vsubuVV m vd va vb) s = .next t) : Effect (.vsubuVV m vd va vb) s t :=
  effect_elementwise h

theorem effect_vmacuVV (m : MaskSel) (va vb : VReg)
    (h : exec (.vmacuVV m va vb) s = .next t) : Effect (.vmacuVV m va vb) s t :=
  effect_multiplyAccumulate rfl h

theorem effect_vabsdiffVV (m : MaskSel) (vd va vb : VReg)
    (h : exec (.vabsdiffVV m vd va vb) s = .next t) : Effect (.vabsdiffVV m vd va vb) s t :=
  effect_elementwise h

theorem effect_vsraVV (m : MaskSel) (vd va vb : VReg)
    (h : exec (.vsraVV m vd va vb) s = .next t) : Effect (.vsraVV m vd va vb) s t :=
  effect_elementwise h

theorem effect_vcmpeqVV (m : MaskSel) (fd : FReg) (va vb : VReg)
    (h : exec (.vcmpeqVV m fd va vb) s = .next t) : Effect (.vcmpeqVV m fd va vb) s t :=
  effect_compare h

theorem effect_vsllVV (m : MaskSel) (vd va vb : VReg)
    (h : exec (.vsllVV m vd va vb) s = .next t) : Effect (.vsllVV m vd va vb) s t :=
  effect_elementwise h

theorem effect_vsrlVV (m : MaskSel) (vd va vb : VReg)
    (h : exec (.vsrlVV m vd va vb) s = .next t) : Effect (.vsrlVV m vd va vb) s t :=
  effect_elementwise h

theorem effect_vrotVV (m : MaskSel) (vd va vb : VReg)
    (h : exec (.vrotVV m vd va vb) s = .next t) : Effect (.vrotVV m vd va vb) s t :=
  effect_elementwise h

theorem effect_vcmpltVV (m : MaskSel) (fd : FReg) (va vb : VReg)
    (h : exec (.vcmpltVV m fd va vb) s = .next t) : Effect (.vcmpltVV m fd va vb) s t :=
  effect_compare h

theorem effect_vdivVV (m : MaskSel) (vd va vb : VReg)
    (h : exec (.vdivVV m vd va vb) s = .next t) : Effect (.vdivVV m vd va vb) s t :=
  effect_elementwise h

theorem effect_vcmpleVV (m : MaskSel) (fd : FReg) (va vb : VReg)
    (h : exec (.vcmpleVV m fd va vb) s = .next t) : Effect (.vcmpleVV m fd va vb) s t :=
  effect_compare h

theorem effect_vmergeVV (m : MaskSel) (vd va vb : VReg)
    (h : exec (.vmergeVV m vd va vb) s = .next t) : Effect (.vmergeVV m vd va vb) s t :=
  effect_merge h

theorem effect_vcmpneqVV (m : MaskSel) (fd : FReg) (va vb : VReg)
    (h : exec (.vcmpneqVV m fd va vb) s = .next t) : Effect (.vcmpneqVV m fd va vb) s t :=
  effect_compare h

theorem effect_vcmpltuVV (m : MaskSel) (fd : FReg) (va vb : VReg)
    (h : exec (.vcmpltuVV m fd va vb) s = .next t) : Effect (.vcmpltuVV m fd va vb) s t :=
  effect_compare h

theorem effect_vdivuVV (m : MaskSel) (vd va vb : VReg)
    (h : exec (.vdivuVV m vd va vb) s = .next t) : Effect (.vdivuVV m vd va vb) s t :=
  effect_elementwise h

theorem effect_vcmpleuVV (m : MaskSel) (fd : FReg) (va vb : VReg)
    (h : exec (.vcmpleuVV m fd va vb) s = .next t) : Effect (.vcmpleuVV m fd va vb) s t :=
  effect_compare h

theorem effect_vmaxVV (m : MaskSel) (vd va vb : VReg)
    (h : exec (.vmaxVV m vd va vb) s = .next t) : Effect (.vmaxVV m vd va vb) s t :=
  effect_elementwise h

theorem effect_vextVV (vd va : VReg)
    (h : exec (.vextVV vd va) s = .next t) : Effect (.vextVV vd va) s t := by
  obtain ⟨-, -, -, h⟩ := (transfer_next _ _ _ _ _).mp h
  rw [finish_next] at h
  subst h
  refine .vector vd _ (fun hv k _ => ?_) fun _ k hk => if_neg (by omega)
  show fits _ (if _ then _ else _)
  split_ifs <;> exact fits_velem hv _ _

theorem effect_vinsVV (vd va : VReg)
    (h : exec (.vinsVV vd va) s = .next t) : Effect (.vinsVV vd va) s t := by
  obtain ⟨-, -, -, h⟩ := (transfer_next _ _ _ _ _).mp h
  rw [finish_next] at h
  subst h
  refine .vector vd _ (fun hv k _ => ?_) nofun
  show fits _ (if _ then _ else _)
  split_ifs <;> exact fits_velem hv _ _

theorem effect_vminVV (m : MaskSel) (vd va vb : VReg)
    (h : exec (.vminVV m vd va vb) s = .next t) : Effect (.vminVV m vd va vb) s t :=
  effect_elementwise h

theorem effect_vmulhiVV (m : MaskSel) (vd va vb : VReg)
    (h : exec (.vmulhiVV m vd va vb) s = .next t) : Effect (.vmulhiVV m vd va vb) s t :=
  effect_elementwise (require_next _ |>.mp h).2

theorem effect_vmulloVV (m : MaskSel) (vd va vb : VReg)
    (h : exec (.vmulloVV m vd va vb) s = .next t) : Effect (.vmulloVV m vd va vb) s t :=
  effect_elementwise (require_next _ |>.mp h).2

theorem effect_vmaxuVV (m : MaskSel) (vd va vb : VReg)
    (h : exec (.vmaxuVV m vd va vb) s = .next t) : Effect (.vmaxuVV m vd va vb) s t :=
  effect_elementwise h

theorem effect_vminuVV (m : MaskSel) (vd va vb : VReg)
    (h : exec (.vminuVV m vd va vb) s = .next t) : Effect (.vminuVV m vd va vb) s t :=
  effect_elementwise h

theorem effect_vmulhiuVV (m : MaskSel) (vd va vb : VReg)
    (h : exec (.vmulhiuVV m vd va vb) s = .next t) : Effect (.vmulhiuVV m vd va vb) s t :=
  effect_elementwise (require_next _ |>.mp h).2

theorem effect_vmullouVV (m : MaskSel) (vd va vb : VReg)
    (h : exec (.vmullouVV m vd va vb) s = .next t) : Effect (.vmullouVV m vd va vb) s t :=
  effect_elementwise (require_next _ |>.mp h).2

theorem effect_vccacc (vd : VReg)
    (h : exec (.vccacc vd) s = .next t) : Effect (.vccacc vd) s t := by
  obtain ⟨ha, h⟩ := (require_next _).mp h
  have h := (finish_next _ _).mp h
  subst h
  exact .copy vd _ rfl rfl rfl ha fun k => fits_elem ..

theorem effect_vupshift (vd va : VReg)
    (h : exec (.vupshift vd va) s = .next t) : Effect (.vupshift vd va) s t := by
  have h := (finish_next _ _).mp ((require_next _).mp h).2
  subst h
  exact .vector vd _ (fun hv k _ => fits_velem hv _ _) nofun

theorem effect_vcomp (m : MaskSel) (vd va : VReg)
    (h : exec (.vcomp m vd va) s = .next t) : Effect (.vcomp m vd va) s t := by
  have h := (finish_next _ _).mp ((require_next _).mp h).2
  subst h
  refine .vector vd _ (fun hv k _ => ?_) fun _ k hk => ?_
  · show fits _ (match (s.activeVPs m)[k]? with | some i => s.velem va i | none => s.velem vd k)
    split <;> exact fits_velem hv _ _
  · have hlen : (s.activeVPs m).length ≤ s.vlen := by
      have hsub : s.activeVPs m ⊆ List.range s.vlen := fun j hj =>
        List.mem_range.mpr (active_lt ((mem_activeVPs s m j).mp hj).2)
      have hnd : (s.activeVPs m).Nodup := List.Nodup.filter _ List.nodup_range
      simpa using (hnd.subperm hsub).length_le
    show (match (s.activeVPs m)[k]? with | some i => s.velem va i | none => s.velem vd k) = _
    rw [List.getElem?_eq_none (by omega)]

theorem effect_vexpand (m : MaskSel) (vd va : VReg)
    (h : exec (.vexpand m vd va) s = .next t) : Effect (.vexpand m vd va) s t := by
  have h := (finish_next _ _).mp ((require_next _).mp h).2
  subst h
  refine .vector vd _ (fun hv k _ => ?_) fun _ k hk => if_neg fun ha => by
    have := active_lt ha; omega
  show fits _ (if _ then _ else _)
  split_ifs <;> exact fits_velem hv _ _

theorem effect_vabsVV (m : MaskSel) (vd va : VReg)
    (h : exec (.vabsVV m vd va) s = .next t) : Effect (.vabsVV m vd va) s t :=
  effect_elementwise h

theorem effect_vcczacc (vd : VReg)
    (h : exec (.vcczacc vd) s = .next t) : Effect (.vcczacc vd) s t := by
  obtain ⟨ha, h⟩ := (require_next _).mp h
  have h := (finish_next _ _).mp h
  subst h
  exact .copyZero vd _ rfl rfl rfl ha (fits_firstClearing _ fun k => fits_elem ..)

theorem effect_vaddVS (m : MaskSel) (vd va : VReg) (rs : SReg)
    (h : exec (.vaddVS m vd va rs) s = .next t) : Effect (.vaddVS m vd va rs) s t :=
  effect_elementwise h

theorem effect_vsubVS (m : MaskSel) (vd va : VReg) (rs : SReg)
    (h : exec (.vsubVS m vd va rs) s = .next t) : Effect (.vsubVS m vd va rs) s t :=
  effect_elementwise h

theorem effect_vmacVS (m : MaskSel) (va : VReg) (rs : SReg)
    (h : exec (.vmacVS m va rs) s = .next t) : Effect (.vmacVS m va rs) s t :=
  effect_multiplyAccumulate rfl h

theorem effect_vandVS (m : MaskSel) (vd va : VReg) (rs : SReg)
    (h : exec (.vandVS m vd va rs) s = .next t) : Effect (.vandVS m vd va rs) s t :=
  effect_elementwise h

theorem effect_vorVS (m : MaskSel) (vd va : VReg) (rs : SReg)
    (h : exec (.vorVS m vd va rs) s = .next t) : Effect (.vorVS m vd va rs) s t :=
  effect_elementwise h

theorem effect_vxorVS (m : MaskSel) (vd va : VReg) (rs : SReg)
    (h : exec (.vxorVS m vd va rs) s = .next t) : Effect (.vxorVS m vd va rs) s t :=
  effect_elementwise h

theorem effect_vadduVS (m : MaskSel) (vd va : VReg) (rs : SReg)
    (h : exec (.vadduVS m vd va rs) s = .next t) : Effect (.vadduVS m vd va rs) s t :=
  effect_elementwise h

theorem effect_vsubuVS (m : MaskSel) (vd va : VReg) (rs : SReg)
    (h : exec (.vsubuVS m vd va rs) s = .next t) : Effect (.vsubuVS m vd va rs) s t :=
  effect_elementwise h

theorem effect_vmacuVS (m : MaskSel) (va : VReg) (rs : SReg)
    (h : exec (.vmacuVS m va rs) s = .next t) : Effect (.vmacuVS m va rs) s t :=
  effect_multiplyAccumulate rfl h

theorem effect_vabsdiffVS (m : MaskSel) (vd va : VReg) (rs : SReg)
    (h : exec (.vabsdiffVS m vd va rs) s = .next t) : Effect (.vabsdiffVS m vd va rs) s t :=
  effect_elementwise h

theorem effect_vsraVS (m : MaskSel) (vd va : VReg) (rs : SReg)
    (h : exec (.vsraVS m vd va rs) s = .next t) : Effect (.vsraVS m vd va rs) s t :=
  effect_elementwise h

theorem effect_vcmpeqVS (m : MaskSel) (fd : FReg) (va : VReg) (rs : SReg)
    (h : exec (.vcmpeqVS m fd va rs) s = .next t) : Effect (.vcmpeqVS m fd va rs) s t :=
  effect_compare h

theorem effect_vsllVS (m : MaskSel) (vd va : VReg) (rs : SReg)
    (h : exec (.vsllVS m vd va rs) s = .next t) : Effect (.vsllVS m vd va rs) s t :=
  effect_elementwise h

theorem effect_vsrlVS (m : MaskSel) (vd va : VReg) (rs : SReg)
    (h : exec (.vsrlVS m vd va rs) s = .next t) : Effect (.vsrlVS m vd va rs) s t :=
  effect_elementwise h

theorem effect_vrotVS (m : MaskSel) (vd va : VReg) (rs : SReg)
    (h : exec (.vrotVS m vd va rs) s = .next t) : Effect (.vrotVS m vd va rs) s t :=
  effect_elementwise h

theorem effect_vcmpltVS (m : MaskSel) (fd : FReg) (va : VReg) (rs : SReg)
    (h : exec (.vcmpltVS m fd va rs) s = .next t) : Effect (.vcmpltVS m fd va rs) s t :=
  effect_compare h

theorem effect_vdivVS (m : MaskSel) (vd va : VReg) (rs : SReg)
    (h : exec (.vdivVS m vd va rs) s = .next t) : Effect (.vdivVS m vd va rs) s t :=
  effect_elementwise h

theorem effect_vcmpleVS (m : MaskSel) (fd : FReg) (va : VReg) (rs : SReg)
    (h : exec (.vcmpleVS m fd va rs) s = .next t) : Effect (.vcmpleVS m fd va rs) s t :=
  effect_compare h

theorem effect_vmergeVS (m : MaskSel) (vd va : VReg) (rs : SReg)
    (h : exec (.vmergeVS m vd va rs) s = .next t) : Effect (.vmergeVS m vd va rs) s t :=
  effect_merge h

theorem effect_vcmpneqVS (m : MaskSel) (fd : FReg) (va : VReg) (rs : SReg)
    (h : exec (.vcmpneqVS m fd va rs) s = .next t) : Effect (.vcmpneqVS m fd va rs) s t :=
  effect_compare h

theorem effect_vcmpltuVS (m : MaskSel) (fd : FReg) (va : VReg) (rs : SReg)
    (h : exec (.vcmpltuVS m fd va rs) s = .next t) : Effect (.vcmpltuVS m fd va rs) s t :=
  effect_compare h

theorem effect_vdivuVS (m : MaskSel) (vd va : VReg) (rs : SReg)
    (h : exec (.vdivuVS m vd va rs) s = .next t) : Effect (.vdivuVS m vd va rs) s t :=
  effect_elementwise h

theorem effect_vcmpleuVS (m : MaskSel) (fd : FReg) (va : VReg) (rs : SReg)
    (h : exec (.vcmpleuVS m fd va rs) s = .next t) : Effect (.vcmpleuVS m fd va rs) s t :=
  effect_compare h

theorem effect_vmaxVS (m : MaskSel) (vd va : VReg) (rs : SReg)
    (h : exec (.vmaxVS m vd va rs) s = .next t) : Effect (.vmaxVS m vd va rs) s t :=
  effect_elementwise h

theorem effect_vextVS (rs : SReg) (va : VReg)
    (h : exec (.vextVS rs va) s = .next t) : Effect (.vextVS rs va) s t := by
  have h := (finish_next _ _).mp h
  subst h
  exact .extract rs _ rfl

theorem effect_vinsVS (vd : VReg) (rs : SReg)
    (h : exec (.vinsVS vd rs) s = .next t) : Effect (.vinsVS vd rs) s t := by
  have h := (finish_next _ _).mp h
  subst h
  refine .vector vd _ (fun hv k _ => ?_) nofun
  show fits _ (if _ then _ else _)
  split_ifs
  · exact fits_truncElem ..
  · exact fits_velem hv _ _

theorem effect_vminVS (m : MaskSel) (vd va : VReg) (rs : SReg)
    (h : exec (.vminVS m vd va rs) s = .next t) : Effect (.vminVS m vd va rs) s t :=
  effect_elementwise h

theorem effect_vmulhiVS (m : MaskSel) (vd va : VReg) (rs : SReg)
    (h : exec (.vmulhiVS m vd va rs) s = .next t) : Effect (.vmulhiVS m vd va rs) s t :=
  effect_elementwise (require_next _ |>.mp h).2

theorem effect_vmulloVS (m : MaskSel) (vd va : VReg) (rs : SReg)
    (h : exec (.vmulloVS m vd va rs) s = .next t) : Effect (.vmulloVS m vd va rs) s t :=
  effect_elementwise (require_next _ |>.mp h).2

theorem effect_vmaxuVS (m : MaskSel) (vd va : VReg) (rs : SReg)
    (h : exec (.vmaxuVS m vd va rs) s = .next t) : Effect (.vmaxuVS m vd va rs) s t :=
  effect_elementwise h

theorem effect_vextuVS (rs : SReg) (va : VReg)
    (h : exec (.vextuVS rs va) s = .next t) : Effect (.vextuVS rs va) s t := by
  have h := (finish_next _ _).mp h
  subst h
  exact .extract rs _ rfl

theorem effect_vminuVS (m : MaskSel) (vd va : VReg) (rs : SReg)
    (h : exec (.vminuVS m vd va rs) s = .next t) : Effect (.vminuVS m vd va rs) s t :=
  effect_elementwise h

theorem effect_vmulhiuVS (m : MaskSel) (vd va : VReg) (rs : SReg)
    (h : exec (.vmulhiuVS m vd va rs) s = .next t) : Effect (.vmulhiuVS m vd va rs) s t :=
  effect_elementwise (require_next _ |>.mp h).2

theorem effect_vmullouVS (m : MaskSel) (vd va : VReg) (rs : SReg)
    (h : exec (.vmullouVS m vd va rs) s = .next t) : Effect (.vmullouVS m vd va rs) s t :=
  effect_elementwise (require_next _ |>.mp h).2

theorem effect_vsraSV (m : MaskSel) (vd : VReg) (rs : SReg) (vb : VReg)
    (h : exec (.vsraSV m vd rs vb) s = .next t) : Effect (.vsraSV m vd rs vb) s t :=
  effect_elementwise h

theorem effect_vsubSV (m : MaskSel) (vd : VReg) (rs : SReg) (vb : VReg)
    (h : exec (.vsubSV m vd rs vb) s = .next t) : Effect (.vsubSV m vd rs vb) s t :=
  effect_elementwise h

theorem effect_vsllSV (m : MaskSel) (vd : VReg) (rs : SReg) (vb : VReg)
    (h : exec (.vsllSV m vd rs vb) s = .next t) : Effect (.vsllSV m vd rs vb) s t :=
  effect_elementwise h

theorem effect_vsrlSV (m : MaskSel) (vd : VReg) (rs : SReg) (vb : VReg)
    (h : exec (.vsrlSV m vd rs vb) s = .next t) : Effect (.vsrlSV m vd rs vb) s t :=
  effect_elementwise h

theorem effect_vrotSV (m : MaskSel) (vd : VReg) (rs : SReg) (vb : VReg)
    (h : exec (.vrotSV m vd rs vb) s = .next t) : Effect (.vrotSV m vd rs vb) s t :=
  effect_elementwise h

theorem effect_vcmpltSV (m : MaskSel) (fd : FReg) (rs : SReg) (vb : VReg)
    (h : exec (.vcmpltSV m fd rs vb) s = .next t) : Effect (.vcmpltSV m fd rs vb) s t :=
  effect_compare h

theorem effect_vdivSV (m : MaskSel) (vd : VReg) (rs : SReg) (vb : VReg)
    (h : exec (.vdivSV m vd rs vb) s = .next t) : Effect (.vdivSV m vd rs vb) s t :=
  effect_elementwise h

theorem effect_vcmpleSV (m : MaskSel) (fd : FReg) (rs : SReg) (vb : VReg)
    (h : exec (.vcmpleSV m fd rs vb) s = .next t) : Effect (.vcmpleSV m fd rs vb) s t :=
  effect_compare h

theorem effect_vmergeSV (m : MaskSel) (vd : VReg) (rs : SReg) (vb : VReg)
    (h : exec (.vmergeSV m vd rs vb) s = .next t) : Effect (.vmergeSV m vd rs vb) s t :=
  effect_merge h

theorem effect_vsubuSV (m : MaskSel) (vd : VReg) (rs : SReg) (vb : VReg)
    (h : exec (.vsubuSV m vd rs vb) s = .next t) : Effect (.vsubuSV m vd rs vb) s t :=
  effect_elementwise h

theorem effect_vcmpltuSV (m : MaskSel) (fd : FReg) (rs : SReg) (vb : VReg)
    (h : exec (.vcmpltuSV m fd rs vb) s = .next t) : Effect (.vcmpltuSV m fd rs vb) s t :=
  effect_compare h

theorem effect_vdivuSV (m : MaskSel) (vd : VReg) (rs : SReg) (vb : VReg)
    (h : exec (.vdivuSV m vd rs vb) s = .next t) : Effect (.vdivuSV m vd rs vb) s t :=
  effect_elementwise h

theorem effect_vcmpleuSV (m : MaskSel) (fd : FReg) (rs : SReg) (vb : VReg)
    (h : exec (.vcmpleuSV m fd rs vb) s = .next t) : Effect (.vcmpleuSV m fd rs vb) s t :=
  effect_compare h

theorem effect_vsaddVV (m : MaskSel) (vd va vb : VReg)
    (h : exec (.vsaddVV m vd va vb) s = .next t) : Effect (.vsaddVV m vd va vb) s t :=
  effect_elementwise (fixedPoint_next _ _ |>.mp h).2

theorem effect_vssubVV (m : MaskSel) (vd va vb : VReg)
    (h : exec (.vssubVV m vd va vb) s = .next t) : Effect (.vssubVV m vd va vb) s t :=
  effect_elementwise (fixedPoint_next _ _ |>.mp h).2

theorem effect_vsat (n : Width) (m : MaskSel) (vd va : VReg)
    (h : exec (.vsat n m vd va) s = .next t) : Effect (.vsat n m vd va) s t :=
  effect_elementwise (require_next _ |>.mp (fixedPoint_next _ _ |>.mp h).2).2

theorem effect_vsrr (m : MaskSel) (vd va : VReg)
    (h : exec (.vsrr m vd va) s = .next t) : Effect (.vsrr m vd va) s t :=
  effect_elementwise (fixedPoint_next _ _ |>.mp h).2

theorem effect_vsls (m : MaskSel) (vd va : VReg)
    (h : exec (.vsls m vd va) s = .next t) : Effect (.vsls m vd va) s t :=
  effect_elementwise (fixedPoint_next _ _ |>.mp h).2

theorem effect_vxmulhiVV (m : MaskSel) (vd va vb : VReg)
    (h : exec (.vxmulhiVV m vd va vb) s = .next t) : Effect (.vxmulhiVV m vd va vb) s t :=
  effect_elementwise (require_next _ |>.mp (fixedPoint_next _ _ |>.mp h).2).2

theorem effect_vxmulloVV (m : MaskSel) (vd va vb : VReg)
    (h : exec (.vxmulloVV m vd va vb) s = .next t) : Effect (.vxmulloVV m vd va vb) s t :=
  effect_elementwise (require_next _ |>.mp (fixedPoint_next _ _ |>.mp h).2).2

theorem effect_vsadduVV (m : MaskSel) (vd va vb : VReg)
    (h : exec (.vsadduVV m vd va vb) s = .next t) : Effect (.vsadduVV m vd va vb) s t :=
  effect_elementwise (fixedPoint_next _ _ |>.mp h).2

theorem effect_vssubuVV (m : MaskSel) (vd va vb : VReg)
    (h : exec (.vssubuVV m vd va vb) s = .next t) : Effect (.vssubuVV m vd va vb) s t :=
  effect_elementwise (fixedPoint_next _ _ |>.mp h).2

theorem effect_vsatu (n : Width) (m : MaskSel) (vd va : VReg)
    (h : exec (.vsatu n m vd va) s = .next t) : Effect (.vsatu n m vd va) s t :=
  effect_elementwise (require_next _ |>.mp (fixedPoint_next _ _ |>.mp h).2).2

theorem effect_vsrru (m : MaskSel) (vd va : VReg)
    (h : exec (.vsrru m vd va) s = .next t) : Effect (.vsrru m vd va) s t :=
  effect_elementwise (fixedPoint_next _ _ |>.mp h).2

theorem effect_vslsu (m : MaskSel) (vd va : VReg)
    (h : exec (.vslsu m vd va) s = .next t) : Effect (.vslsu m vd va) s t :=
  effect_elementwise (fixedPoint_next _ _ |>.mp h).2

theorem effect_vxmulhiuVV (m : MaskSel) (vd va vb : VReg)
    (h : exec (.vxmulhiuVV m vd va vb) s = .next t) : Effect (.vxmulhiuVV m vd va vb) s t :=
  effect_elementwise (require_next _ |>.mp (fixedPoint_next _ _ |>.mp h).2).2

theorem effect_vxmullouVV (m : MaskSel) (vd va vb : VReg)
    (h : exec (.vxmullouVV m vd va vb) s = .next t) : Effect (.vxmullouVV m vd va vb) s t :=
  effect_elementwise (require_next _ |>.mp (fixedPoint_next _ _ |>.mp h).2).2

theorem effect_vxccacc (vd : VReg)
    (h : exec (.vxccacc vd) s = .next t) : Effect (.vxccacc vd) s t := by
  obtain ⟨ha, h⟩ := (require_next _).mp ((fixedPoint_next _ _).mp h).2
  have h := (finish_next _ _).mp h
  subst h
  exact .copy vd _ rfl rfl rfl ha fun k => fits_elem ..

theorem effect_vsatsu (n : Width) (m : MaskSel) (vd va : VReg)
    (h : exec (.vsatsu n m vd va) s = .next t) : Effect (.vsatsu n m vd va) s t :=
  effect_elementwise (require_next _ |>.mp (fixedPoint_next _ _ |>.mp h).2).2

theorem effect_vxcczacc (vd : VReg)
    (h : exec (.vxcczacc vd) s = .next t) : Effect (.vxcczacc vd) s t := by
  obtain ⟨ha, h⟩ := (require_next _).mp ((fixedPoint_next _ _).mp h).2
  have h := (finish_next _ _).mp h
  subst h
  exact .copyZero vd _ rfl rfl rfl ha (fits_firstClearing _ fun k => fits_elem ..)

theorem effect_vsaddVS (m : MaskSel) (vd va : VReg) (rs : SReg)
    (h : exec (.vsaddVS m vd va rs) s = .next t) : Effect (.vsaddVS m vd va rs) s t :=
  effect_elementwise (fixedPoint_next _ _ |>.mp h).2

theorem effect_vssubVS (m : MaskSel) (vd va : VReg) (rs : SReg)
    (h : exec (.vssubVS m vd va rs) s = .next t) : Effect (.vssubVS m vd va rs) s t :=
  effect_elementwise (fixedPoint_next _ _ |>.mp h).2

theorem effect_vxmulhiVS (m : MaskSel) (vd va : VReg) (rs : SReg)
    (h : exec (.vxmulhiVS m vd va rs) s = .next t) : Effect (.vxmulhiVS m vd va rs) s t :=
  effect_elementwise (require_next _ |>.mp (fixedPoint_next _ _ |>.mp h).2).2

theorem effect_vxmulloVS (m : MaskSel) (vd va : VReg) (rs : SReg)
    (h : exec (.vxmulloVS m vd va rs) s = .next t) : Effect (.vxmulloVS m vd va rs) s t :=
  effect_elementwise (require_next _ |>.mp (fixedPoint_next _ _ |>.mp h).2).2

theorem effect_vsadduVS (m : MaskSel) (vd va : VReg) (rs : SReg)
    (h : exec (.vsadduVS m vd va rs) s = .next t) : Effect (.vsadduVS m vd va rs) s t :=
  effect_elementwise (fixedPoint_next _ _ |>.mp h).2

theorem effect_vssubuVS (m : MaskSel) (vd va : VReg) (rs : SReg)
    (h : exec (.vssubuVS m vd va rs) s = .next t) : Effect (.vssubuVS m vd va rs) s t :=
  effect_elementwise (fixedPoint_next _ _ |>.mp h).2

theorem effect_vxmulhiuVS (m : MaskSel) (vd va : VReg) (rs : SReg)
    (h : exec (.vxmulhiuVS m vd va rs) s = .next t) : Effect (.vxmulhiuVS m vd va rs) s t :=
  effect_elementwise (require_next _ |>.mp (fixedPoint_next _ _ |>.mp h).2).2

theorem effect_vxmullouVS (m : MaskSel) (vd va : VReg) (rs : SReg)
    (h : exec (.vxmullouVS m vd va rs) s = .next t) : Effect (.vxmullouVS m vd va rs) s t :=
  effect_elementwise (require_next _ |>.mp (fixedPoint_next _ _ |>.mp h).2).2

theorem effect_vssubSV (m : MaskSel) (vd : VReg) (rs : SReg) (vb : VReg)
    (h : exec (.vssubSV m vd rs vb) s = .next t) : Effect (.vssubSV m vd rs vb) s t :=
  effect_elementwise (fixedPoint_next _ _ |>.mp h).2

theorem effect_vssubuSV (m : MaskSel) (vd : VReg) (rs : SReg) (vb : VReg)
    (h : exec (.vssubuSV m vd rs vb) s = .next t) : Effect (.vssubuSV m vd rs vb) s t :=
  effect_elementwise (fixedPoint_next _ _ |>.mp h).2

theorem effect_vfclr (fd : FReg)
    (h : exec (.vfclr fd) s = .next t) : Effect (.vfclr fd) s t :=
  effect_flagLoop h

theorem effect_vfset (fd : FReg)
    (h : exec (.vfset fd) s = .next t) : Effect (.vfset fd) s t :=
  effect_flagLoop h

theorem effect_vfandVV (fd fa fb : FReg)
    (h : exec (.vfandVV fd fa fb) s = .next t) : Effect (.vfandVV fd fa fb) s t :=
  effect_flagLoop h

theorem effect_vfnorVV (fd fa fb : FReg)
    (h : exec (.vfnorVV fd fa fb) s = .next t) : Effect (.vfnorVV fd fa fb) s t :=
  effect_flagLoop h

theorem effect_vforVV (fd fa fb : FReg)
    (h : exec (.vforVV fd fa fb) s = .next t) : Effect (.vforVV fd fa fb) s t :=
  effect_flagLoop h

theorem effect_vfxorVV (fd fa fb : FReg)
    (h : exec (.vfxorVV fd fa fb) s = .next t) : Effect (.vfxorVV fd fa fb) s t :=
  effect_flagLoop h

theorem effect_vfff1 (rs : SReg) (fa : FReg)
    (h : exec (.vfff1 rs fa) s = .next t) : Effect (.vfff1 rs fa) s t :=
  effect_flagSearch rfl h

theorem effect_vffl1 (rs : SReg) (fa : FReg)
    (h : exec (.vffl1 rs fa) s = .next t) : Effect (.vffl1 rs fa) s t :=
  effect_flagSearch rfl h

theorem effect_vfsetof (fd fa : FReg)
    (h : exec (.vfsetof fd fa) s = .next t) : Effect (.vfsetof fd fa) s t :=
  effect_flagScan (g := fun p k => decide (k = p)) h

theorem effect_vfsetbf (fd fa : FReg)
    (h : exec (.vfsetbf fd fa) s = .next t) : Effect (.vfsetbf fd fa) s t :=
  effect_flagScan (g := fun p k => decide (k < p)) h

theorem effect_vfsetif (fd fa : FReg)
    (h : exec (.vfsetif fd fa) s = .next t) : Effect (.vfsetif fd fa) s t :=
  effect_flagScan (g := fun p k => decide (k ≤ p)) h

theorem effect_vfinsVS (fd : FReg) (rs : SReg)
    (h : exec (.vfinsVS fd rs) s = .next t) : Effect (.vfinsVS fd rs) s t := by
  have h := next_inj.mp ((requireFlags_next _).mp h).2
  subst h
  exact .flag ..

theorem effect_vfandVS (fd fa : FReg) (rs : SReg)
    (h : exec (.vfandVS fd fa rs) s = .next t) : Effect (.vfandVS fd fa rs) s t :=
  effect_flagLoop h

theorem effect_vfnorVS (fd fa : FReg) (rs : SReg)
    (h : exec (.vfnorVS fd fa rs) s = .next t) : Effect (.vfnorVS fd fa rs) s t :=
  effect_flagLoop h

theorem effect_vforVS (fd fa : FReg) (rs : SReg)
    (h : exec (.vforVS fd fa rs) s = .next t) : Effect (.vforVS fd fa rs) s t :=
  effect_flagLoop h

theorem effect_vfxorVS (fd fa : FReg) (rs : SReg)
    (h : exec (.vfxorVS fd fa rs) s = .next t) : Effect (.vfxorVS fd fa rs) s t :=
  effect_flagLoop h

theorem effect_vmstc (vc : CReg) (rs : SReg)
    (h : exec (.vmstc vc rs) s = .next t) : Effect (.vmstc vc rs) s t := by
  have h := ((require_next _).mp ((require_next _).mp ((require_next _).mp h).2).2)
  obtain ⟨h1, h2⟩ := h
  have h2 := next_inj.mp h2
  subst h2
  refine .control vc _ rfl fun hv => ?_
  subst hv
  simpa using h1

theorem effect_vmcts (rs : SReg) (vc : CReg)
    (h : exec (.vmcts rs vc) s = .next t) : Effect (.vmcts rs vc) s t := by
  have h : (match s.creg vc with
    | none => (.refused .reservedControlRegister : Result)
    | some a => .next (s.setX rs a).advance) = .next t := h
  split at h
  · cases h
  · have h := next_inj.mp h
    subst h
    exact .scalar rs _ rfl

theorem effect_vldB (m : MaskSel) (vd : VReg) (vb : VBase) (vi : VInc)
    (h : exec (.vldB m vd vb vi) s = .next t) : Effect (.vldB m vd vb vi) s t :=
  effect_loadIncrement h

theorem effect_vstB (m : MaskSel) (va : VReg) (vb : VBase) (vi : VInc)
    (h : exec (.vstB m va vb vi) s = .next t) : Effect (.vstB m va vb vi) s t :=
  effect_storeIncrement rfl h

theorem effect_vldsB (m : MaskSel) (vd : VReg) (vb : VBase) (vs : VStride) (vi : VInc)
    (h : exec (.vldsB m vd vb vs vi) s = .next t) : Effect (.vldsB m vd vb vs vi) s t :=
  effect_loadIncrement h

theorem effect_vstsB (m : MaskSel) (va : VReg) (vb : VBase) (vs : VStride) (vi : VInc)
    (h : exec (.vstsB m va vb vs vi) s = .next t) : Effect (.vstsB m va vb vs vi) s t :=
  effect_storeIncrement rfl h

theorem effect_vldxB (m : MaskSel) (vd vo : VReg) (vb : VBase)
    (h : exec (.vldxB m vd vo vb) s = .next t) : Effect (.vldxB m vd vo vb) s t :=
  effect_load h

theorem effect_vstxuB (m : MaskSel) (va vo : VReg) (vb : VBase)
    (h : exec (.vstxuB m va vo vb) s = .next t) : Effect (.vstxuB m va vo vb) s t :=
  effect_storeAny rfl h

theorem effect_vstxB (m : MaskSel) (va vo : VReg) (vb : VBase)
    (h : exec (.vstxB m va vo vb) s = .next t) : Effect (.vstxB m va vo vb) s t :=
  effect_store rfl h

theorem effect_vlduB (m : MaskSel) (vd : VReg) (vb : VBase) (vi : VInc)
    (h : exec (.vlduB m vd vb vi) s = .next t) : Effect (.vlduB m vd vb vi) s t :=
  effect_loadIncrement h

theorem effect_vldsuB (m : MaskSel) (vd : VReg) (vb : VBase) (vs : VStride) (vi : VInc)
    (h : exec (.vldsuB m vd vb vs vi) s = .next t) : Effect (.vldsuB m vd vb vs vi) s t :=
  effect_loadIncrement h

theorem effect_vldxuB (m : MaskSel) (vd vo : VReg) (vb : VBase)
    (h : exec (.vldxuB m vd vo vb) s = .next t) : Effect (.vldxuB m vd vo vb) s t :=
  effect_load h

theorem effect_vldH (m : MaskSel) (vd : VReg) (vb : VBase) (vi : VInc)
    (h : exec (.vldH m vd vb vi) s = .next t) : Effect (.vldH m vd vb vi) s t :=
  effect_loadIncrement h

theorem effect_vstH (m : MaskSel) (va : VReg) (vb : VBase) (vi : VInc)
    (h : exec (.vstH m va vb vi) s = .next t) : Effect (.vstH m va vb vi) s t :=
  effect_storeIncrement rfl h

theorem effect_vldsH (m : MaskSel) (vd : VReg) (vb : VBase) (vs : VStride) (vi : VInc)
    (h : exec (.vldsH m vd vb vs vi) s = .next t) : Effect (.vldsH m vd vb vs vi) s t :=
  effect_loadIncrement h

theorem effect_vstsH (m : MaskSel) (va : VReg) (vb : VBase) (vs : VStride) (vi : VInc)
    (h : exec (.vstsH m va vb vs vi) s = .next t) : Effect (.vstsH m va vb vs vi) s t :=
  effect_storeIncrement rfl h

theorem effect_vldxH (m : MaskSel) (vd vo : VReg) (vb : VBase)
    (h : exec (.vldxH m vd vo vb) s = .next t) : Effect (.vldxH m vd vo vb) s t :=
  effect_load h

theorem effect_vstxuH (m : MaskSel) (va vo : VReg) (vb : VBase)
    (h : exec (.vstxuH m va vo vb) s = .next t) : Effect (.vstxuH m va vo vb) s t :=
  effect_storeAny rfl h

theorem effect_vstxH (m : MaskSel) (va vo : VReg) (vb : VBase)
    (h : exec (.vstxH m va vo vb) s = .next t) : Effect (.vstxH m va vo vb) s t :=
  effect_store rfl h

theorem effect_vlduH (m : MaskSel) (vd : VReg) (vb : VBase) (vi : VInc)
    (h : exec (.vlduH m vd vb vi) s = .next t) : Effect (.vlduH m vd vb vi) s t :=
  effect_loadIncrement h

theorem effect_vldsuH (m : MaskSel) (vd : VReg) (vb : VBase) (vs : VStride) (vi : VInc)
    (h : exec (.vldsuH m vd vb vs vi) s = .next t) : Effect (.vldsuH m vd vb vs vi) s t :=
  effect_loadIncrement h

theorem effect_vldxuH (m : MaskSel) (vd vo : VReg) (vb : VBase)
    (h : exec (.vldxuH m vd vo vb) s = .next t) : Effect (.vldxuH m vd vo vb) s t :=
  effect_load h

theorem effect_vldW (m : MaskSel) (vd : VReg) (vb : VBase) (vi : VInc)
    (h : exec (.vldW m vd vb vi) s = .next t) : Effect (.vldW m vd vb vi) s t :=
  effect_loadIncrement h

theorem effect_vstW (m : MaskSel) (va : VReg) (vb : VBase) (vi : VInc)
    (h : exec (.vstW m va vb vi) s = .next t) : Effect (.vstW m va vb vi) s t :=
  effect_storeIncrement rfl h

theorem effect_vldsW (m : MaskSel) (vd : VReg) (vb : VBase) (vs : VStride) (vi : VInc)
    (h : exec (.vldsW m vd vb vs vi) s = .next t) : Effect (.vldsW m vd vb vs vi) s t :=
  effect_loadIncrement h

theorem effect_vstsW (m : MaskSel) (va : VReg) (vb : VBase) (vs : VStride) (vi : VInc)
    (h : exec (.vstsW m va vb vs vi) s = .next t) : Effect (.vstsW m va vb vs vi) s t :=
  effect_storeIncrement rfl h

theorem effect_vldxW (m : MaskSel) (vd vo : VReg) (vb : VBase)
    (h : exec (.vldxW m vd vo vb) s = .next t) : Effect (.vldxW m vd vo vb) s t :=
  effect_load h

theorem effect_vstxuW (m : MaskSel) (va vo : VReg) (vb : VBase)
    (h : exec (.vstxuW m va vo vb) s = .next t) : Effect (.vstxuW m va vo vb) s t :=
  effect_storeAny rfl h

theorem effect_vstxW (m : MaskSel) (va vo : VReg) (vb : VBase)
    (h : exec (.vstxW m va vo vb) s = .next t) : Effect (.vstxW m va vo vb) s t :=
  effect_store rfl h

theorem effect_vldlVV (m : MaskSel) (vd va : VReg)
    (h : exec (.vldlVV m vd va) s = .next t) : Effect (.vldlVV m vd va) s t := by
  have h := (next_inj.mp ((unlessFault_next _).mp ((require_next _).mp h).2).2)
  subst h
  refine .load vd _ (fun hv hl k _ => ?_) fun k hk => if_neg fun ha => by
    have := active_lt ha; omega
  show fits _ (if _ then _ else _)
  split_ifs
  · exact fits_localRead hl _ _
  · exact fits_velem hv _ _

theorem effect_vstlVV (m : MaskSel) (va vb : VReg)
    (h : exec (.vstlVV m va vb) s = .next t) : Effect (.vstlVV m va vb) s t :=
  effect_localStore rfl h

theorem effect_vfld (fd : FReg) (vb : VBase) (vi : VInc)
    (h : exec (.vfld fd vb vi) s = .next t) : Effect (.vfld fd vb vi) s t := by
  have h := next_inj.mp ((unlessFault_next _).mp ((requireFlags_next _).mp h).2).2
  subst h
  exact .flagLoad ..

theorem effect_vfst (fd : FReg) (vb : VBase) (vi : VInc)
    (h : exec (.vfst fd vb vi) s = .next t) : Effect (.vfst fd vb vi) s t := by
  obtain ⟨hf, h⟩ := (unlessFault_next _).mp
    ((avoidingCode_next ..).mp ((requireFlags_next _).mp h).2).2
  have h := next_inj.mp h
  subst h
  refine .flagStore _ vb vi rfl fun hm => ?_
  have hl := ((accessFaults_none ..).mp hf).2
  refine ⟨Memory.wf_foldl _ (fun m k hm => Memory.wf_write hm _ _) _ hm.1, ?_⟩
  have key : ∀ (l : List Nat) (m : Memory), (∀ k ∈ l, legalAccess s.cfg (s.flagAddr vb k) 1) →
      (∀ c ∈ m, plainByte s.cfg c.1 = true) →
      ∀ c ∈ l.foldl (fun mem k => mem.write (s.flagAddr vb k).toNat (s.flagStoreByte fd k)) m,
        plainByte s.cfg c.1 = true := by
    intro l
    induction l with
    | nil => intro m _ hm; exact hm
    | cons k u ih =>
      intro m hk hm
      refine ih _ (fun j hj => hk j (by simp [hj])) fun c hc => ?_
      rcases Memory.mem_write hc with hc | hc
      · have := (hk k (by simp)).2.2.2 0 (by omega)
        rwa [Nat.add_zero, ← hc] at this
      · exact hm c hc
  exact key _ s.mem hl hm.2

theorem effect_vstlVS (m : MaskSel) (va : VReg) (rs : SReg)
    (h : exec (.vstlVS m va rs) s = .next t) : Effect (.vstlVS m va rs) s t :=
  effect_localStore rfl h

theorem effect_vfpop (rs : SReg) (fa : FReg)
    (h : exec (.vfpop rs fa) s = .next t) : Effect (.vfpop rs fa) s t :=
  effect_flagSearch rfl h

/-- What an instruction can do if it answers a next state. -/
theorem exec_effect (i : Instr) (s t : State) (h : exec i s = .next t) : Effect i s t := by
  cases i with
  | vaddVV m vd va vb => exact effect_vaddVV m vd va vb h
  | vsubVV m vd va vb => exact effect_vsubVV m vd va vb h
  | vmacVV m va vb => exact effect_vmacVV m va vb h
  | vandVV m vd va vb => exact effect_vandVV m vd va vb h
  | vorVV m vd va vb => exact effect_vorVV m vd va vb h
  | vxorVV m vd va vb => exact effect_vxorVV m vd va vb h
  | vadduVV m vd va vb => exact effect_vadduVV m vd va vb h
  | vsubuVV m vd va vb => exact effect_vsubuVV m vd va vb h
  | vmacuVV m va vb => exact effect_vmacuVV m va vb h
  | vabsdiffVV m vd va vb => exact effect_vabsdiffVV m vd va vb h
  | vsraVV m vd va vb => exact effect_vsraVV m vd va vb h
  | vcmpeqVV m fd va vb => exact effect_vcmpeqVV m fd va vb h
  | vsllVV m vd va vb => exact effect_vsllVV m vd va vb h
  | vsrlVV m vd va vb => exact effect_vsrlVV m vd va vb h
  | vrotVV m vd va vb => exact effect_vrotVV m vd va vb h
  | vcmpltVV m fd va vb => exact effect_vcmpltVV m fd va vb h
  | vdivVV m vd va vb => exact effect_vdivVV m vd va vb h
  | vcmpleVV m fd va vb => exact effect_vcmpleVV m fd va vb h
  | vmergeVV m vd va vb => exact effect_vmergeVV m vd va vb h
  | vcmpneqVV m fd va vb => exact effect_vcmpneqVV m fd va vb h
  | vcmpltuVV m fd va vb => exact effect_vcmpltuVV m fd va vb h
  | vdivuVV m vd va vb => exact effect_vdivuVV m vd va vb h
  | vcmpleuVV m fd va vb => exact effect_vcmpleuVV m fd va vb h
  | vmaxVV m vd va vb => exact effect_vmaxVV m vd va vb h
  | vextVV vd va => exact effect_vextVV vd va h
  | vinsVV vd va => exact effect_vinsVV vd va h
  | vminVV m vd va vb => exact effect_vminVV m vd va vb h
  | vmulhiVV m vd va vb => exact effect_vmulhiVV m vd va vb h
  | vmulloVV m vd va vb => exact effect_vmulloVV m vd va vb h
  | vmaxuVV m vd va vb => exact effect_vmaxuVV m vd va vb h
  | vminuVV m vd va vb => exact effect_vminuVV m vd va vb h
  | vmulhiuVV m vd va vb => exact effect_vmulhiuVV m vd va vb h
  | vmullouVV m vd va vb => exact effect_vmullouVV m vd va vb h
  | vccacc vd => exact effect_vccacc vd h
  | vupshift vd va => exact effect_vupshift vd va h
  | vcomp m vd va => exact effect_vcomp m vd va h
  | vexpand m vd va => exact effect_vexpand m vd va h
  | vabsVV m vd va => exact effect_vabsVV m vd va h
  | vcczacc vd => exact effect_vcczacc vd h
  | vaddVS m vd va rs => exact effect_vaddVS m vd va rs h
  | vsubVS m vd va rs => exact effect_vsubVS m vd va rs h
  | vmacVS m va rs => exact effect_vmacVS m va rs h
  | vandVS m vd va rs => exact effect_vandVS m vd va rs h
  | vorVS m vd va rs => exact effect_vorVS m vd va rs h
  | vxorVS m vd va rs => exact effect_vxorVS m vd va rs h
  | vadduVS m vd va rs => exact effect_vadduVS m vd va rs h
  | vsubuVS m vd va rs => exact effect_vsubuVS m vd va rs h
  | vmacuVS m va rs => exact effect_vmacuVS m va rs h
  | vabsdiffVS m vd va rs => exact effect_vabsdiffVS m vd va rs h
  | vsraVS m vd va rs => exact effect_vsraVS m vd va rs h
  | vcmpeqVS m fd va rs => exact effect_vcmpeqVS m fd va rs h
  | vsllVS m vd va rs => exact effect_vsllVS m vd va rs h
  | vsrlVS m vd va rs => exact effect_vsrlVS m vd va rs h
  | vrotVS m vd va rs => exact effect_vrotVS m vd va rs h
  | vcmpltVS m fd va rs => exact effect_vcmpltVS m fd va rs h
  | vdivVS m vd va rs => exact effect_vdivVS m vd va rs h
  | vcmpleVS m fd va rs => exact effect_vcmpleVS m fd va rs h
  | vmergeVS m vd va rs => exact effect_vmergeVS m vd va rs h
  | vcmpneqVS m fd va rs => exact effect_vcmpneqVS m fd va rs h
  | vcmpltuVS m fd va rs => exact effect_vcmpltuVS m fd va rs h
  | vdivuVS m vd va rs => exact effect_vdivuVS m vd va rs h
  | vcmpleuVS m fd va rs => exact effect_vcmpleuVS m fd va rs h
  | vmaxVS m vd va rs => exact effect_vmaxVS m vd va rs h
  | vextVS rs va => exact effect_vextVS rs va h
  | vinsVS vd rs => exact effect_vinsVS vd rs h
  | vminVS m vd va rs => exact effect_vminVS m vd va rs h
  | vmulhiVS m vd va rs => exact effect_vmulhiVS m vd va rs h
  | vmulloVS m vd va rs => exact effect_vmulloVS m vd va rs h
  | vmaxuVS m vd va rs => exact effect_vmaxuVS m vd va rs h
  | vextuVS rs va => exact effect_vextuVS rs va h
  | vminuVS m vd va rs => exact effect_vminuVS m vd va rs h
  | vmulhiuVS m vd va rs => exact effect_vmulhiuVS m vd va rs h
  | vmullouVS m vd va rs => exact effect_vmullouVS m vd va rs h
  | vsraSV m vd rs vb => exact effect_vsraSV m vd rs vb h
  | vsubSV m vd rs vb => exact effect_vsubSV m vd rs vb h
  | vsllSV m vd rs vb => exact effect_vsllSV m vd rs vb h
  | vsrlSV m vd rs vb => exact effect_vsrlSV m vd rs vb h
  | vrotSV m vd rs vb => exact effect_vrotSV m vd rs vb h
  | vcmpltSV m fd rs vb => exact effect_vcmpltSV m fd rs vb h
  | vdivSV m vd rs vb => exact effect_vdivSV m vd rs vb h
  | vcmpleSV m fd rs vb => exact effect_vcmpleSV m fd rs vb h
  | vmergeSV m vd rs vb => exact effect_vmergeSV m vd rs vb h
  | vsubuSV m vd rs vb => exact effect_vsubuSV m vd rs vb h
  | vcmpltuSV m fd rs vb => exact effect_vcmpltuSV m fd rs vb h
  | vdivuSV m vd rs vb => exact effect_vdivuSV m vd rs vb h
  | vcmpleuSV m fd rs vb => exact effect_vcmpleuSV m fd rs vb h
  | vsaddVV m vd va vb => exact effect_vsaddVV m vd va vb h
  | vssubVV m vd va vb => exact effect_vssubVV m vd va vb h
  | vsat n m vd va => exact effect_vsat n m vd va h
  | vsrr m vd va => exact effect_vsrr m vd va h
  | vsls m vd va => exact effect_vsls m vd va h
  | vxmulhiVV m vd va vb => exact effect_vxmulhiVV m vd va vb h
  | vxmulloVV m vd va vb => exact effect_vxmulloVV m vd va vb h
  | vsadduVV m vd va vb => exact effect_vsadduVV m vd va vb h
  | vssubuVV m vd va vb => exact effect_vssubuVV m vd va vb h
  | vsatu n m vd va => exact effect_vsatu n m vd va h
  | vsrru m vd va => exact effect_vsrru m vd va h
  | vslsu m vd va => exact effect_vslsu m vd va h
  | vxmulhiuVV m vd va vb => exact effect_vxmulhiuVV m vd va vb h
  | vxmullouVV m vd va vb => exact effect_vxmullouVV m vd va vb h
  | vxccacc vd => exact effect_vxccacc vd h
  | vsatsu n m vd va => exact effect_vsatsu n m vd va h
  | vxcczacc vd => exact effect_vxcczacc vd h
  | vsaddVS m vd va rs => exact effect_vsaddVS m vd va rs h
  | vssubVS m vd va rs => exact effect_vssubVS m vd va rs h
  | vxmulhiVS m vd va rs => exact effect_vxmulhiVS m vd va rs h
  | vxmulloVS m vd va rs => exact effect_vxmulloVS m vd va rs h
  | vsadduVS m vd va rs => exact effect_vsadduVS m vd va rs h
  | vssubuVS m vd va rs => exact effect_vssubuVS m vd va rs h
  | vxmulhiuVS m vd va rs => exact effect_vxmulhiuVS m vd va rs h
  | vxmullouVS m vd va rs => exact effect_vxmullouVS m vd va rs h
  | vssubSV m vd rs vb => exact effect_vssubSV m vd rs vb h
  | vssubuSV m vd rs vb => exact effect_vssubuSV m vd rs vb h
  | vfclr fd => exact effect_vfclr fd h
  | vfset fd => exact effect_vfset fd h
  | vfandVV fd fa fb => exact effect_vfandVV fd fa fb h
  | vfnorVV fd fa fb => exact effect_vfnorVV fd fa fb h
  | vforVV fd fa fb => exact effect_vforVV fd fa fb h
  | vfxorVV fd fa fb => exact effect_vfxorVV fd fa fb h
  | vfff1 rs fa => exact effect_vfff1 rs fa h
  | vffl1 rs fa => exact effect_vffl1 rs fa h
  | vfsetof fd fa => exact effect_vfsetof fd fa h
  | vfsetbf fd fa => exact effect_vfsetbf fd fa h
  | vfsetif fd fa => exact effect_vfsetif fd fa h
  | vfinsVS fd rs => exact effect_vfinsVS fd rs h
  | vfandVS fd fa rs => exact effect_vfandVS fd fa rs h
  | vfnorVS fd fa rs => exact effect_vfnorVS fd fa rs h
  | vforVS fd fa rs => exact effect_vforVS fd fa rs h
  | vfxorVS fd fa rs => exact effect_vfxorVS fd fa rs h
  | vmstc vc rs => exact effect_vmstc vc rs h
  | vmcts rs vc => exact effect_vmcts rs vc h
  | vldB m vd vb vi => exact effect_vldB m vd vb vi h
  | vstB m va vb vi => exact effect_vstB m va vb vi h
  | vldsB m vd vb vs vi => exact effect_vldsB m vd vb vs vi h
  | vstsB m va vb vs vi => exact effect_vstsB m va vb vs vi h
  | vldxB m vd vo vb => exact effect_vldxB m vd vo vb h
  | vstxuB m va vo vb => exact effect_vstxuB m va vo vb h
  | vstxB m va vo vb => exact effect_vstxB m va vo vb h
  | vlduB m vd vb vi => exact effect_vlduB m vd vb vi h
  | vldsuB m vd vb vs vi => exact effect_vldsuB m vd vb vs vi h
  | vldxuB m vd vo vb => exact effect_vldxuB m vd vo vb h
  | vldH m vd vb vi => exact effect_vldH m vd vb vi h
  | vstH m va vb vi => exact effect_vstH m va vb vi h
  | vldsH m vd vb vs vi => exact effect_vldsH m vd vb vs vi h
  | vstsH m va vb vs vi => exact effect_vstsH m va vb vs vi h
  | vldxH m vd vo vb => exact effect_vldxH m vd vo vb h
  | vstxuH m va vo vb => exact effect_vstxuH m va vo vb h
  | vstxH m va vo vb => exact effect_vstxH m va vo vb h
  | vlduH m vd vb vi => exact effect_vlduH m vd vb vi h
  | vldsuH m vd vb vs vi => exact effect_vldsuH m vd vb vs vi h
  | vldxuH m vd vo vb => exact effect_vldxuH m vd vo vb h
  | vldW m vd vb vi => exact effect_vldW m vd vb vi h
  | vstW m va vb vi => exact effect_vstW m va vb vi h
  | vldsW m vd vb vs vi => exact effect_vldsW m vd vb vs vi h
  | vstsW m va vb vs vi => exact effect_vstsW m va vb vs vi h
  | vldxW m vd vo vb => exact effect_vldxW m vd vo vb h
  | vstxuW m va vo vb => exact effect_vstxuW m va vo vb h
  | vstxW m va vo vb => exact effect_vstxW m va vo vb h
  | vldlVV m vd va => exact effect_vldlVV m vd va h
  | vstlVV m va vb => exact effect_vstlVV m va vb h
  | vfld fd vb vi => exact effect_vfld fd vb vi h
  | vfst fd vb vi => exact effect_vfst fd vb vi h
  | vstlVS m va rs => exact effect_vstlVS m va rs h
  | vfpop rs fa => exact effect_vfpop rs fa h

end Sys2Proof.Machine
end

