-- ==== Sys2Proof/Certificates/Slice0/Obligations.lean ====
section
/-! DEFINITION. The statements for the provers. `computes`, `compares`, `loads`, `stores` and
`completes` (Safety.lean) say that an instruction answers a next state, which one, and what it leaves
unchanged. The rules of spec/ a statement formalises come first in its docstring; "log entries" are the
entries of notes/assumptions it rests on, where a choice of the model or a decision of the spec enters. -/

open Sys2Proof Sys2Proof.Machine

/-! ### Integer instructions -/

/-- R134 to R137: sums and differences wrap modulo `2^W`, in every operand form. -/
def Obligations.SumsAndDifferencesWrap : Prop :=
  ∀ (s : State) (m : MaskSel) (vd va vb : VReg) (rs : SReg),
    let sum := fun (a b : Source) k e => wrapsTo s.cfg (s.signedAt a k + s.signedAt b k) e
    let sumu := fun (a b : Source) k e => wrapsTo s.cfg (s.unsignedAt a k + s.unsignedAt b k) e
    let dif := fun (a b : Source) k e => wrapsTo s.cfg (s.signedAt a k - s.signedAt b k) e
    let difu := fun (a b : Source) k e =>
      wrapsTo s.cfg ((s.unsignedAt a k : Int) - s.unsignedAt b k) e
    (computes (.vaddVV m vd va vb) s m vd (sum (.vec va) (.vec vb)) ∧
      computes (.vaddVS m vd va rs) s m vd (sum (.vec va) (.scalar rs))) ∧
    (computes (.vadduVV m vd va vb) s m vd (sumu (.vec va) (.vec vb)) ∧
      computes (.vadduVS m vd va rs) s m vd (sumu (.vec va) (.scalar rs))) ∧
    (computes (.vsubVV m vd va vb) s m vd (dif (.vec va) (.vec vb)) ∧
      computes (.vsubVS m vd va rs) s m vd (dif (.vec va) (.scalar rs)) ∧
      computes (.vsubSV m vd rs vb) s m vd (dif (.scalar rs) (.vec vb))) ∧
    (computes (.vsubuVV m vd va vb) s m vd (difu (.vec va) (.vec vb)) ∧
      computes (.vsubuVS m vd va rs) s m vd (difu (.vec va) (.scalar rs)) ∧
      computes (.vsubuSV m vd rs vb) s m vd (difu (.scalar rs) (.vec vb))) ∧
    (hasCell (.vaddVV m vd va vb) 0x3D 0 0b000_000 ∧ hasCell (.vaddVS m vd va rs) 0x3D 1 0b000_000) ∧
    (hasCell (.vadduVV m vd va vb) 0x3D 0 0b001_000 ∧ hasCell (.vadduVS m vd va rs) 0x3D 1 0b001_000) ∧
    (hasCell (.vsubVV m vd va vb) 0x3D 0 0b000_001 ∧ hasCell (.vsubVS m vd va rs) 0x3D 1 0b000_001 ∧
      hasCell (.vsubSV m vd rs vb) 0x3D 1 0b110_001) ∧
    (hasCell (.vsubuVV m vd va vb) 0x3D 0 0b001_001 ∧
      hasCell (.vsubuVS m vd va rs) 0x3D 1 0b001_001 ∧ hasCell (.vsubuSV m vd rs vb) 0x3D 1 0b111_001)

/-- R138 to R141: with `Vmult` On, the upper and the lower half of the `2W`-bit product. That all eight
forms are refused with `Vmult` Off is the spec's decision D27 (R8). Log entry 22. -/
def Obligations.ProductHalves : Prop :=
  ∀ (s : State) (m : MaskSel) (vd va vb : VReg) (rs : SReg),
    let hi := fun (a b : Source) k e =>
      wrapsTo s.cfg (s.signedAt a k * s.signedAt b k / 2 ^ s.cfg.w) e
    let hiu := fun (a b : Source) k e =>
      wrapsTo s.cfg ((s.unsignedAt a k * s.unsignedAt b k / 2 ^ s.cfg.w : Nat)) e
    let lo := fun (a b : Source) k e => wrapsTo s.cfg (s.signedAt a k * s.signedAt b k) e
    let lou := fun (a b : Source) k e => wrapsTo s.cfg (s.unsignedAt a k * s.unsignedAt b k) e
    let forms := [(Instr.vmulhiVV m vd va vb, 0, 0b100_110), (.vmulhiVS m vd va rs, 1, 0b100_110),
      (.vmulhiuVV m vd va vb, 0, 0b101_110), (.vmulhiuVS m vd va rs, 1, 0b101_110),
      (.vmulloVV m vd va vb, 0, 0b100_111), (.vmulloVS m vd va rs, 1, 0b100_111),
      (.vmullouVV m vd va vb, 0, 0b101_111), (.vmullouVS m vd va rs, 1, 0b101_111)]
    (s.cfg.vmult = true →
      computes (.vmulhiVV m vd va vb) s m vd (hi (.vec va) (.vec vb)) ∧
      computes (.vmulhiVS m vd va rs) s m vd (hi (.vec va) (.scalar rs)) ∧
      computes (.vmulhiuVV m vd va vb) s m vd (hiu (.vec va) (.vec vb)) ∧
      computes (.vmulhiuVS m vd va rs) s m vd (hiu (.vec va) (.scalar rs)) ∧
      computes (.vmulloVV m vd va vb) s m vd (lo (.vec va) (.vec vb)) ∧
      computes (.vmulloVS m vd va rs) s m vd (lo (.vec va) (.scalar rs)) ∧
      computes (.vmullouVV m vd va vb) s m vd (lou (.vec va) (.vec vb)) ∧
      computes (.vmullouVS m vd va rs) s m vd (lou (.vec va) (.scalar rs))) ∧
    (s.cfg.vmult = false → ∀ p ∈ forms, exec p.1 s = .refused .featureOff) ∧
    (∀ p ∈ forms, hasCell p.1 0x3D p.2.1 p.2.2)

/-- R132, R133: the absolute value, free for the most negative element, and the absolute difference
under either reading of its operands. Log entries 11, 20. -/
def Obligations.AbsoluteValues : Prop :=
  ∀ (s : State) (m : MaskSel) (vd va vb : VReg) (rs : SReg),
    let diff := fun (a b : Source) k (e : Elem) =>
      (e.toNat : Int) = if s.cfg.absDiffSigned = true then |s.signedAt a k - s.signedAt b k|
        else |(s.unsignedAt a k : Int) - s.unsignedAt b k|
    computes (.vabsVV m vd va) s m vd (fun k e =>
      if s.signedAt (.vec va) k = -2 ^ (s.cfg.w - 1) then fits s.cfg e
      else (e.toNat : Int) = |s.signedAt (.vec va) k|) ∧
    computes (.vabsdiffVV m vd va vb) s m vd (diff (.vec va) (.vec vb)) ∧
    computes (.vabsdiffVS m vd va rs) s m vd (diff (.vec va) (.scalar rs)) ∧
    hasCell (.vabsVV m vd va) 0x3D 0 0b110_101 ∧ hasCell (.vabsdiffVV m vd va vb) 0x3D 0 0b001_101 ∧
    hasCell (.vabsdiffVS m vd va rs) 0x3D 1 0b001_101

/-- R142, R143 with R131: quotients; a division by 0 and the quotient of the most negative element
by -1 complete and leave a free value. Log entries 11, 20. -/
def Obligations.Quotients : Prop :=
  ∀ (s : State) (m : MaskSel) (vd va vb : VReg) (rs : SReg),
    let quo := fun (a b : Source) k e =>
      if s.signedAt b k = 0 ∨ (s.signedAt a k = -2 ^ (s.cfg.w - 1) ∧ s.signedAt b k = -1) then
        fits s.cfg e
      else ∃ q, isQuotient s.cfg (s.signedAt a k) (s.signedAt b k) q ∧ wrapsTo s.cfg q e
    let quou := fun (a b : Source) k (e : Elem) =>
      if s.unsignedAt b k = 0 then fits s.cfg e
      else e.toNat = s.unsignedAt a k / s.unsignedAt b k
    computes (.vdivVV m vd va vb) s m vd (quo (.vec va) (.vec vb)) ∧
    computes (.vdivVS m vd va rs) s m vd (quo (.vec va) (.scalar rs)) ∧
    computes (.vdivSV m vd rs vb) s m vd (quo (.scalar rs) (.vec vb)) ∧
    computes (.vdivuVV m vd va vb) s m vd (quou (.vec va) (.vec vb)) ∧
    computes (.vdivuVS m vd va rs) s m vd (quou (.vec va) (.scalar rs)) ∧
    computes (.vdivuSV m vd rs vb) s m vd (quou (.scalar rs) (.vec vb)) ∧
    (∀ p ∈ [(Instr.vdivVV m vd va vb, 0, 0b010_110), (.vdivVS m vd va rs, 1, 0b010_110),
        (.vdivSV m vd rs vb, 1, 0b110_110), (.vdivuVV m vd va vb, 0, 0b011_110),
        (.vdivuVS m vd va rs, 1, 0b011_110), (.vdivuSV m vd rs vb, 1, 0b111_110)],
      hasCell p.1 0x3D p.2.1 p.2.2)

/-- R144, R173, R174: the first operand is the amount, the second the value shifted; an amount of
`W` or more completes and leaves a free value. Log entry 20. -/
def Obligations.Shifts : Prop :=
  ∀ (s : State) (m : MaskSel) (vd va vb : VReg) (rs : SReg),
    let shift := fun (f : Source → Nat → Nat → Int) (a b : Source) k e =>
      if s.cfg.w ≤ s.unsignedAt a k then fits s.cfg e
      else wrapsTo s.cfg (f b k (s.unsignedAt a k)) e
    let sra := shift fun b k n => s.signedAt b k / 2 ^ n
    let sll := shift fun b k n => s.unsignedAt b k * 2 ^ n
    let srl := shift fun b k n => (s.unsignedAt b k / 2 ^ n : Nat)
    (computes (.vsraVV m vd va vb) s m vd (sra (.vec va) (.vec vb)) ∧
      computes (.vsraVS m vd va rs) s m vd (sra (.vec va) (.scalar rs)) ∧
      computes (.vsraSV m vd rs vb) s m vd (sra (.scalar rs) (.vec vb))) ∧
    (computes (.vsllVV m vd va vb) s m vd (sll (.vec va) (.vec vb)) ∧
      computes (.vsllVS m vd va rs) s m vd (sll (.vec va) (.scalar rs)) ∧
      computes (.vsllSV m vd rs vb) s m vd (sll (.scalar rs) (.vec vb))) ∧
    (computes (.vsrlVV m vd va vb) s m vd (srl (.vec va) (.vec vb)) ∧
      computes (.vsrlVS m vd va rs) s m vd (srl (.vec va) (.scalar rs)) ∧
      computes (.vsrlSV m vd rs vb) s m vd (srl (.scalar rs) (.vec vb))) ∧
    (∀ p ∈ [(Instr.vsraVV m vd va vb, 0, 0b010_000), (.vsraVS m vd va rs, 1, 0b010_000),
        (.vsraSV m vd rs vb, 1, 0b110_000), (.vsllVV m vd va vb, 0, 0b010_010),
        (.vsllVS m vd va rs, 1, 0b010_010), (.vsllSV m vd rs vb, 1, 0b110_010),
        (.vsrlVV m vd va vb, 0, 0b010_011), (.vsrlVS m vd va rs, 1, 0b010_011),
        (.vsrlSV m vd rs vb, 1, 0b110_011)],
      hasCell p.1 0x3D p.2.1 p.2.2)

/-- R175: the first operand is rotated right, by the second modulo `W`. Log entry 20. -/
def Obligations.Rotations : Prop :=
  ∀ (s : State) (m : MaskSel) (vd va vb : VReg) (rs : SReg),
    let rot := fun (a b : Source) k (e : Elem) =>
      let n := s.unsignedAt b k % s.cfg.w
      e.toNat = s.unsignedAt a k / 2 ^ n + s.unsignedAt a k % 2 ^ n * 2 ^ (s.cfg.w - n)
    computes (.vrotVV m vd va vb) s m vd (rot (.vec va) (.vec vb)) ∧
    computes (.vrotVS m vd va rs) s m vd (rot (.vec va) (.scalar rs)) ∧
    computes (.vrotSV m vd rs vb) s m vd (rot (.scalar rs) (.vec vb))

/-- R145 to R148: signed and unsigned minima and maxima. -/
def Obligations.MinimaAndMaxima : Prop :=
  ∀ (s : State) (m : MaskSel) (vd va vb : VReg) (rs : SReg),
    let sgn := fun (f : Int → Int → Int) (a b : Source) k e =>
      fits s.cfg e ∧ signedOf s.cfg e = f (s.signedAt a k) (s.signedAt b k)
    let uns := fun (f : Nat → Nat → Nat) (a b : Source) k (e : Elem) =>
      e.toNat = f (s.unsignedAt a k) (s.unsignedAt b k)
    computes (.vminVV m vd va vb) s m vd (sgn min (.vec va) (.vec vb)) ∧
    computes (.vminVS m vd va rs) s m vd (sgn min (.vec va) (.scalar rs)) ∧
    computes (.vmaxVV m vd va vb) s m vd (sgn max (.vec va) (.vec vb)) ∧
    computes (.vmaxVS m vd va rs) s m vd (sgn max (.vec va) (.scalar rs)) ∧
    computes (.vminuVV m vd va vb) s m vd (uns min (.vec va) (.vec vb)) ∧
    computes (.vminuVS m vd va rs) s m vd (uns min (.vec va) (.scalar rs)) ∧
    computes (.vmaxuVV m vd va vb) s m vd (uns max (.vec va) (.vec vb)) ∧
    computes (.vmaxuVS m vd va rs) s m vd (uns max (.vec va) (.scalar rs)) ∧
    (∀ p ∈ [(Instr.vminVV m vd va vb, 0, 0b100_101), (.vminVS m vd va rs, 1, 0b100_101),
        (.vmaxVV m vd va vb, 0, 0b100_001), (.vmaxVS m vd va rs, 1, 0b100_001),
        (.vminuVV m vd va vb, 0, 0b101_101), (.vminuVS m vd va rs, 1, 0b101_101),
        (.vmaxuVV m vd va vb, 0, 0b101_001), (.vmaxuVS m vd va rs, 1, 0b101_001)],
      hasCell p.1 0x3D p.2.1 p.2.2)

/-- R170 to R172: and, or, exclusive or, bit by bit over `W` bits. -/
def Obligations.BitwiseLogic : Prop :=
  ∀ (s : State) (m : MaskSel) (vd va vb : VReg) (rs : SReg),
    let bits := fun (f : Bool → Bool → Bool) (a b : Source) k e =>
      fits s.cfg e ∧ ∀ j, j < s.cfg.w →
        e.getLsbD j = f ((s.source a k).getLsbD j) ((s.source b k).getLsbD j)
    computes (.vandVV m vd va vb) s m vd (bits and (.vec va) (.vec vb)) ∧
    computes (.vandVS m vd va rs) s m vd (bits and (.vec va) (.scalar rs)) ∧
    computes (.vorVV m vd va vb) s m vd (bits or (.vec va) (.vec vb)) ∧
    computes (.vorVS m vd va rs) s m vd (bits or (.vec va) (.scalar rs)) ∧
    computes (.vxorVV m vd va vb) s m vd (bits xor (.vec va) (.vec vb)) ∧
    computes (.vxorVS m vd va rs) s m vd (bits xor (.vec va) (.scalar rs)) ∧
    (∀ p ∈ [(Instr.vandVV m vd va vb, 0, 0b000_100), (.vandVS m vd va rs, 1, 0b000_100),
        (.vorVV m vd va vb, 0, 0b000_110), (.vorVS m vd va rs, 1, 0b000_110),
        (.vxorVV m vd va vb, 0, 0b000_111), (.vxorVS m vd va rs, 1, 0b000_111)],
      hasCell p.1 0x3D p.2.1 p.2.2)

/-- R149 to R154, R156: the compares write the active bits of `vF`, in every operand form. That the
write stands over the side effect of R27 where `vF` is `$vf16` or `$vf17`, and that nothing is known
of their inactive bits, is decision D15 of the spec as log entry 17 reads it; that `$vf30` and
`$vf31` discard the write is decision D8 (log entry 18). -/
def Obligations.Compares : Prop :=
  ∀ (s : State) (m : MaskSel) (fd : FReg) (va vb : VReg) (rs : SReg), reservedFlag fd = false →
    let eq := fun (a b : Source) k => s.unsignedAt a k = s.unsignedAt b k
    let ne := fun (a b : Source) k => s.unsignedAt a k ≠ s.unsignedAt b k
    let lt := fun (a b : Source) k => s.signedAt a k < s.signedAt b k
    let ltu := fun (a b : Source) k => s.unsignedAt a k < s.unsignedAt b k
    let le := fun (a b : Source) k => s.signedAt a k ≤ s.signedAt b k
    let leu := fun (a b : Source) k => s.unsignedAt a k ≤ s.unsignedAt b k
    (compares (.vcmpeqVV m fd va vb) s m fd (eq (.vec va) (.vec vb)) ∧
      compares (.vcmpeqVS m fd va rs) s m fd (eq (.vec va) (.scalar rs))) ∧
    (compares (.vcmpneqVV m fd va vb) s m fd (ne (.vec va) (.vec vb)) ∧
      compares (.vcmpneqVS m fd va rs) s m fd (ne (.vec va) (.scalar rs))) ∧
    (compares (.vcmpltVV m fd va vb) s m fd (lt (.vec va) (.vec vb)) ∧
      compares (.vcmpltVS m fd va rs) s m fd (lt (.vec va) (.scalar rs)) ∧
      compares (.vcmpltSV m fd rs vb) s m fd (lt (.scalar rs) (.vec vb))) ∧
    (compares (.vcmpltuVV m fd va vb) s m fd (ltu (.vec va) (.vec vb)) ∧
      compares (.vcmpltuVS m fd va rs) s m fd (ltu (.vec va) (.scalar rs)) ∧
      compares (.vcmpltuSV m fd rs vb) s m fd (ltu (.scalar rs) (.vec vb))) ∧
    (compares (.vcmpleVV m fd va vb) s m fd (le (.vec va) (.vec vb)) ∧
      compares (.vcmpleVS m fd va rs) s m fd (le (.vec va) (.scalar rs)) ∧
      compares (.vcmpleSV m fd rs vb) s m fd (le (.scalar rs) (.vec vb))) ∧
    (compares (.vcmpleuVV m fd va vb) s m fd (leu (.vec va) (.vec vb)) ∧
      compares (.vcmpleuVS m fd va rs) s m fd (leu (.vec va) (.scalar rs)) ∧
      compares (.vcmpleuSV m fd rs vb) s m fd (leu (.scalar rs) (.vec vb))) ∧
    (∀ p ∈ [(Instr.vcmpeqVV m fd va vb, 0, 0b010_001), (.vcmpeqVS m fd va rs, 1, 0b010_001),
        (.vcmpneqVV m fd va vb, 0, 0b011_001), (.vcmpneqVS m fd va rs, 1, 0b011_001),
        (.vcmpltVV m fd va vb, 0, 0b010_101), (.vcmpltVS m fd va rs, 1, 0b010_101),
        (.vcmpltSV m fd rs vb, 1, 0b110_101), (.vcmpltuVV m fd va vb, 0, 0b011_101),
        (.vcmpltuVS m fd va rs, 1, 0b011_101), (.vcmpltuSV m fd rs vb, 1, 0b111_101),
        (.vcmpleVV m fd va vb, 0, 0b010_111), (.vcmpleVS m fd va rs, 1, 0b010_111),
        (.vcmpleSV m fd rs vb, 1, 0b110_111), (.vcmpleuVV m fd va vb, 0, 0b011_111),
        (.vcmpleuVS m fd va rs, 1, 0b011_111), (.vcmpleuSV m fd rs vb, 1, 0b111_111)],
      hasCell p.1 0x3D p.2.1 p.2.2)

/-- R167: the signed and the unsigned sum, difference and low product write the same elements. -/
def Obligations.SignednessDoesNotMatter : Prop :=
  ∀ (s t u : State) (m : MaskSel) (vd va vb : VReg) (rs : SReg) (p : Instr × Instr),
    p ∈ [(.vaddVV m vd va vb, .vadduVV m vd va vb), (.vaddVS m vd va rs, .vadduVS m vd va rs),
      (.vsubVV m vd va vb, .vsubuVV m vd va vb), (.vsubVS m vd va rs, .vsubuVS m vd va rs),
      (.vsubSV m vd rs vb, .vsubuSV m vd rs vb), (.vmulloVV m vd va vb, .vmullouVV m vd va vb),
      (.vmulloVS m vd va rs, .vmullouVS m vd va rs)] →
    exec p.1 s = .next t → exec p.2 s = .next u → ∀ r i, t.velem r i = u.velem r i

/-- R163, R164: every accumulator adds, modulo `2^AccW`, the products of the active VPs that feed
it. An accumulator that nothing has written adds to the 0 it holds at reset: that the instruction
completes there, and its sum, is the model's choice (log entry 3; R46 has ReadBeforeWrite). Log
entries 3, 21. -/
def Obligations.MultiplyAccumulates : Prop :=
  ∀ (s : State) (m : MaskSel) (va vb : VReg) (rs : SReg), macAvailable s.cfg = true →
    let sums := fun (product : Nat → Int) (t : State) =>
      t.acc.length = accCount s.cfg ∧ ∀ k, k < accCount s.cfg →
        (t.accValue k : Int) = (s.accValue k + ∑ i ∈ Finset.range s.cfg.mvl,
          if s.active m i = true ∧ accOf s.cfg i = k then product i else 0) % 2 ^ s.cfg.accW
    let signed := fun (b : Source) i => s.signedAt (.vec va) i * s.signedAt b i
    let unsigned := fun (b : Source) i => (s.unsignedAt (.vec va) i : Int) * s.unsignedAt b i
    let fr : Frame := { f := [16, 17], acc := true }
    completes (.vmacVV m va vb) s fr (sums (signed (.vec vb))) ∧
    completes (.vmacVS m va rs) s fr (sums (signed (.scalar rs))) ∧
    completes (.vmacuVV m va vb) s fr (sums (unsigned (.vec vb))) ∧
    completes (.vmacuVS m va rs) s fr (sums (unsigned (.scalar rs))) ∧
    (∀ p ∈ [(Instr.vmacVV m va vb, 0, 0b000_011), (.vmacVS m va rs, 1, 0b000_011),
        (.vmacuVV m va vb, 0, 0b001_011), (.vmacuVS m va rs, 1, 0b001_011)],
      hasCell p.1 0x3D p.2.1 p.2.2)

/-- R165: `vccacc` writes the low `W` bits of the sum of every chain to the first `P` elements,
sets `VL` to `P` and leaves the accumulators alone. An accumulator that nothing has written counts
as the 0 it holds at reset: that the instruction completes there, and its value, is the model's
choice (log entry 3; R46 has ReadBeforeWrite). Log entries 3, 21. -/
def Obligations.CopyFromAccumulators : Prop :=
  ∀ (s : State) (vd : VReg), macAvailable s.cfg = true →
    completes (.vccacc vd) s { v := [vd], f := [16, 17], c := [0] } (fun t =>
      elementsAfter s t vd (fun j => j < partialCount s.cfg) (fun j e =>
        wrapsTo s.cfg ((∑ k ∈ Finset.range (accCount s.cfg),
          if accChain s.cfg k = j then (s.accValue k : Int) else 0) % 2 ^ s.cfg.accW) e) ∧
      t.creg 0 = some (BitVec.ofNat 32 (partialCount s.cfg))) ∧
    hasCell (.vccacc vd) 0x3D 0 0b110_000

/-- R166, R198: `vcczacc` and `vxcczacc` zero every accumulator and set `VL` to `P`; what they copy
is what `vccacc` and `vxccacc` copy where every accumulator of the chain has been written, and a
free value of `W` bits where one has not (the model's reading: log entry 3). Log entries 3, 21. -/
def Obligations.CopyAndZeroAccumulators : Prop :=
  ∀ (s : State) (vd : VReg), macAvailable s.cfg = true →
    let written := fun j => ∀ k, k < accCount s.cfg → accChain s.cfg k = j → s.accWritten k = true
    let copied := fun (value : Nat → Elem → Prop) (t : State) =>
      elementsAfter s t vd (fun j => j < partialCount s.cfg)
        (fun j e => fits s.cfg e ∧ (written j → value j e)) ∧
      t.creg 0 = some (BitVec.ofNat 32 (partialCount s.cfg)) ∧
      t.acc.length = accCount s.cfg ∧ ∀ k, t.accValue k = 0
    let fr : Frame := { v := [vd], f := [16, 17], c := [0], acc := true }
    completes (.vcczacc vd) s fr (copied fun j e => e = s.chainLow j) ∧
    (s.cfg.fixedPoint = true →
      completes (.vxcczacc vd) s fr (copied fun j e => e = s.chainSaturated j))

/-- R39: whatever the accumulator parameters are, the elements that `vccacc` writes add up, modulo
`2^W`, to the sum of all accumulators (to `vr0` it writes none). That an accumulator nothing has
written counts as 0 in both sums is the model's choice (log entry 3; R46 has ReadBeforeWrite). Log
entries 3, 21. -/
def Obligations.PartialSumsKeepTheTotal : Prop :=
  ∀ (s t : State) (vd : VReg), validMac s.cfg = true → vd ≠ 0 → exec (.vccacc vd) s = .next t →
    ((∑ j ∈ Finset.range (partialCount s.cfg), ((t.velem vd j).toNat : Int)) -
      ∑ k ∈ Finset.range (accCount s.cfg), (s.accValue k : Int)) % 2 ^ s.cfg.w = 0

/-- R40, R163: `vcczacc` and then `vmac.vv` on the cleared accumulators leaves in them exactly the sum
of the products: the sum of all accumulators is, modulo `2^AccW`, the sum of the products of the
active VPs. Of this sequence alone: `vmac.vs` and `vmacu` are left to MultiplyAccumulates. Log
entries 3, 21. -/
def Obligations.ReductionFromCleared : Prop :=
  ∀ (s t u : State) (m : MaskSel) (vd va vb : VReg), validMac s.cfg = true →
    exec (.vcczacc vd) s = .next t → exec (.vmacVV m va vb) t = .next u →
    ((∑ k ∈ Finset.range (accCount s.cfg), (u.accValue k : Int)) -
      ∑ i ∈ Finset.range s.cfg.mvl,
        if t.active m i = true then t.signedAt (.vec va) i * t.signedAt (.vec vb) i else 0)
      % 2 ^ s.cfg.accW = 0

/-! ### Fixed-point instructions -/

/-- R185 to R188: with `FixedPoint` On, sums and differences saturate to the VP width. Log entry
23. -/
def Obligations.SaturatingSums : Prop :=
  ∀ (s : State) (m : MaskSel) (vd va vb : VReg) (rs : SReg), s.cfg.fixedPoint = true →
    let sgn := fun (f : Int → Int → Int) (a b : Source) k e => fits s.cfg e ∧
      signedOf s.cfg e = nearestSigned s.cfg.w (f (s.signedAt a k) (s.signedAt b k))
    let uns := fun (f : Int → Int → Int) (a b : Source) k (e : Elem) =>
      (e.toNat : Int) = nearestUnsigned s.cfg.w (f (s.unsignedAt a k) (s.unsignedAt b k))
    computes (.vsaddVV m vd va vb) s m vd (sgn (· + ·) (.vec va) (.vec vb)) ∧
    computes (.vsaddVS m vd va rs) s m vd (sgn (· + ·) (.vec va) (.scalar rs)) ∧
    computes (.vsadduVV m vd va vb) s m vd (uns (· + ·) (.vec va) (.vec vb)) ∧
    computes (.vsadduVS m vd va rs) s m vd (uns (· + ·) (.vec va) (.scalar rs)) ∧
    computes (.vssubVV m vd va vb) s m vd (sgn (· - ·) (.vec va) (.vec vb)) ∧
    computes (.vssubVS m vd va rs) s m vd (sgn (· - ·) (.vec va) (.scalar rs)) ∧
    computes (.vssubSV m vd rs vb) s m vd (sgn (· - ·) (.scalar rs) (.vec vb)) ∧
    computes (.vssubuVV m vd va vb) s m vd (uns (· - ·) (.vec va) (.vec vb)) ∧
    computes (.vssubuVS m vd va rs) s m vd (uns (· - ·) (.vec va) (.scalar rs)) ∧
    computes (.vssubuSV m vd rs vb) s m vd (uns (· - ·) (.scalar rs) (.vec vb))

/-- R182 to R184: saturation to `N` bits; refused where the width is not narrower than the VP (not
wider, for `vsatsu`). Log entries 11, 23. -/
def Obligations.SaturateToNarrower : Prop :=
  ∀ (s : State) (n : Width) (m : MaskSel) (vd va : VReg), s.cfg.fixedPoint = true →
    (n.bits < s.cfg.w →
      computes (.vsat n m vd va) s m vd (fun k e => fits s.cfg e ∧
        signedOf s.cfg e = nearestSigned n.bits (s.signedAt (.vec va) k)) ∧
      computes (.vsatu n m vd va) s m vd (fun k e =>
        (e.toNat : Int) = nearestUnsigned n.bits (s.unsignedAt (.vec va) k))) ∧
    (n.bits ≤ s.cfg.w →
      computes (.vsatsu n m vd va) s m vd (fun k e =>
        (e.toNat : Int) = nearestUnsigned n.bits (s.signedAt (.vec va) k))) ∧
    (s.cfg.w ≤ n.bits → exec (.vsat n m vd va) s = .refused .widthNotAvailable ∧
      exec (.vsatu n m vd va) s = .refused .widthNotAvailable) ∧
    (s.cfg.w < n.bits → exec (.vsatsu n m vd va) s = .refused .widthNotAvailable)

/-- R189 to R192: the rounding right shifts and the saturating left shifts by `vshamt`; an amount
of `W` or more completes and leaves a free value. Log entries 11, 20, 23. -/
def Obligations.RoundingAndSaturatingShifts : Prop :=
  ∀ (s : State) (m : MaskSel) (vd va : VReg), s.cfg.fixedPoint = true →
    let n := s.vshamt.toNat
    let within := fun (p : Nat → Elem → Prop) k e => if s.cfg.w ≤ n then fits s.cfg e else p k e
    computes (.vsrr m vd va) s m vd (within fun k e =>
      ∃ q, isRounded s.cfg (s.signedAt (.vec va) k) n q ∧ wrapsTo s.cfg q e) ∧
    computes (.vsrru m vd va) s m vd (within fun k e =>
      ∃ q, isRounded s.cfg (s.unsignedAt (.vec va) k) n q ∧ wrapsTo s.cfg q e) ∧
    computes (.vsls m vd va) s m vd (within fun k e => fits s.cfg e ∧
      signedOf s.cfg e = nearestSigned s.cfg.w (s.signedAt (.vec va) k * 2 ^ n)) ∧
    computes (.vslsu m vd va) s m vd (within fun k e =>
      (e.toNat : Int) = nearestUnsigned s.cfg.w (s.unsignedAt (.vec va) k * 2 ^ n))

/-- R193 to R196: the halves of the shifted and rounded product; a shift of `2W` or more completes
and leaves a free value. Log entries 11, 20, 23. -/
def Obligations.FixedPointProducts : Prop :=
  ∀ (s : State) (m : MaskSel) (vd va vb : VReg) (rs : SReg),
    s.cfg.fixedPoint = true → s.cfg.vmult = true →
    let n := s.vshamt.toNat
    let half := fun (f : Int → Int) (p : Int) e => if 2 * s.cfg.w ≤ n then fits s.cfg e
      else ∃ q, isRounded s.cfg p n q ∧ wrapsTo s.cfg (f q) e
    let sgn := fun (f : Int → Int) (b : Source) k =>
      half f (s.signedAt (.vec va) k * s.signedAt b k)
    let uns := fun (f : Int → Int) (b : Source) k =>
      half f (s.unsignedAt (.vec va) k * s.unsignedAt b k)
    computes (.vxmulhiVV m vd va vb) s m vd (sgn (· / 2 ^ s.cfg.w) (.vec vb)) ∧
    computes (.vxmulhiVS m vd va rs) s m vd (sgn (· / 2 ^ s.cfg.w) (.scalar rs)) ∧
    computes (.vxmulhiuVV m vd va vb) s m vd (uns (· / 2 ^ s.cfg.w) (.vec vb)) ∧
    computes (.vxmulhiuVS m vd va rs) s m vd (uns (· / 2 ^ s.cfg.w) (.scalar rs)) ∧
    computes (.vxmulloVV m vd va vb) s m vd (sgn id (.vec vb)) ∧
    computes (.vxmulloVS m vd va rs) s m vd (sgn id (.scalar rs)) ∧
    computes (.vxmullouVV m vd va vb) s m vd (uns id (.vec vb)) ∧
    computes (.vxmullouVS m vd va rs) s m vd (uns id (.scalar rs))

/-- R197: `vxccacc` writes every chain's sum, read as a signed `AccW`-bit value, saturated to the
VP width, and sets `VL` to `P`. An accumulator that nothing has written counts as the 0 it holds at
reset: that the instruction completes there, and its value, is the model's choice (log entry 3; R46
has ReadBeforeWrite). Log entries 3, 21, 23. -/
def Obligations.CopyAndSaturate : Prop :=
  ∀ (s : State) (vd : VReg), s.cfg.fixedPoint = true → macAvailable s.cfg = true →
    completes (.vxccacc vd) s { v := [vd], f := [16, 17], c := [0] } fun t =>
      elementsAfter s t vd (fun j => j < partialCount s.cfg) (fun j e => fits s.cfg e ∧
        signedOf s.cfg e = nearestSigned s.cfg.w
          (Int.bmod (∑ k ∈ Finset.range (accCount s.cfg),
            if accChain s.cfg k = j then (s.accValue k : Int) else 0) (2 ^ s.cfg.accW))) ∧
      t.creg 0 = some (BitVec.ofNat 32 (partialCount s.cfg))

/-- R180: with `FixedPoint` Off every instruction of the family is refused, before any other check.
Log entry 23. -/
def Obligations.FixedPointOffRefuses : Prop :=
  ∀ (s : State) (n : Width) (m : MaskSel) (vd va vb : VReg) (rs : SReg), s.cfg.fixedPoint = false →
    ∀ i ∈ fixedPointForms n m vd va vb rs, exec i s = .refused .fixedPointNotImplemented

/-! ### Main memory -/

/-- R213, R214, R210 to R212: the unit stride loads, sign- and zero-extending, with their
auto-increment. Log entries 15, 24. -/
def Obligations.UnitStrideLoads : Prop :=
  ∀ (s : State) (m : MaskSel) (vd : VReg) (vb : VBase) (vi : VInc),
    let run := fun i wd signed => legalAccesses s wd m vb (s.unitAddr vb wd) →
      loads i s wd signed m vd [baseCreg vb] (s.unitAddr vb wd) fun t => baseIncremented s t vb vi
    run (.vldB m vd vb vi) .b true ∧ run (.vldH m vd vb vi) .h true ∧
    run (.vldW m vd vb vi) .w true ∧ run (.vlduB m vd vb vi) .b false ∧
    run (.vlduH m vd vb vi) .h false

/-- R216, R217, R210 to R212: the constant stride loads. Log entries 15, 24. -/
def Obligations.ConstantStrideLoads : Prop :=
  ∀ (s : State) (m : MaskSel) (vd : VReg) (vb : VBase) (vs : VStride) (vi : VInc),
    let run := fun i wd signed => legalAccesses s wd m vb (s.strideAddr vb vs wd) →
      loads i s wd signed m vd [baseCreg vb] (s.strideAddr vb vs wd) fun t =>
        baseIncremented s t vb vi
    run (.vldsB m vd vb vs vi) .b true ∧ run (.vldsH m vd vb vs vi) .h true ∧
    run (.vldsW m vd vb vs vi) .w true ∧ run (.vldsuB m vd vb vs vi) .b false ∧
    run (.vldsuH m vd vb vs vi) .h false

/-- R219, R220, R210: the indexed loads; they leave the base register alone. Log entries 15, 24. -/
def Obligations.IndexedLoads : Prop :=
  ∀ (s : State) (m : MaskSel) (vd vo : VReg) (vb : VBase),
    let run := fun i wd signed => legalAccesses s wd m vb (s.indexAddr vb vo) →
      loads i s wd signed m vd [] (s.indexAddr vb vo) fun _ => True
    run (.vldxB m vd vo vb) .b true ∧ run (.vldxH m vd vo vb) .h true ∧
    run (.vldxW m vd vo vb) .w true ∧ run (.vldxuB m vd vo vb) .b false ∧
    run (.vldxuH m vd vo vb) .h false

/-- R215, R210 to R212: the unit stride stores; each active VP's bytes hold its own data. Log
entries 15, 24, 26. -/
def Obligations.UnitStrideStores : Prop :=
  ∀ (s : State) (m : MaskSel) (va : VReg) (vb : VBase) (vi : VInc),
    let run := fun i wd => legalAccesses s wd m vb (s.unitAddr vb wd) →
      avoidsCode s wd.bytes m (s.unitAddr vb wd) →
      stores i s wd m va [baseCreg vb] (s.unitAddr vb wd) (fun k j => j = k) fun t =>
        baseIncremented s t vb vi
    run (.vstB m va vb vi) .b ∧ run (.vstH m va vb vi) .h ∧ run (.vstW m va vb vi) .w

/-- R218, R71: the constant stride stores; where elements meet, the highest one stands. Log entries
15, 24, 26. -/
def Obligations.ConstantStrideStores : Prop :=
  ∀ (s : State) (m : MaskSel) (va : VReg) (vb : VBase) (vs : VStride) (vi : VInc),
    let run := fun i wd => legalAccesses s wd m vb (s.strideAddr vb vs wd) →
      avoidsCode s wd.bytes m (s.strideAddr vb vs wd) →
      stores i s wd m va [baseCreg vb] (s.strideAddr vb vs wd)
        (lastStoring s m (s.strideAddr vb vs wd)) fun t => baseIncremented s t vb vi
    run (.vstsB m va vb vs vi) .b ∧ run (.vstsH m va vb vs vi) .h ∧ run (.vstsW m va vb vs vi) .w

/-- R221, R222, R71: the indexed stores; where elements meet, the highest one stands after the
ordered forms, and one of them after the unordered forms. Log entries 15, 24, 26, 27. -/
def Obligations.IndexedStores : Prop :=
  ∀ (s : State) (m : MaskSel) (va vo : VReg) (vb : VBase),
    let run := fun i wd (stored : Nat → Nat → Prop) => legalAccesses s wd m vb (s.indexAddr vb vo) →
      avoidsCode s wd.bytes m (s.indexAddr vb vo) →
      stores i s wd m va [] (s.indexAddr vb vo) stored fun _ => True
    let last := lastStoring s m (s.indexAddr vb vo)
    let any := fun k j => s.indexAddr vb vo j = s.indexAddr vb vo k
    run (.vstxB m va vo vb) .b last ∧ run (.vstxH m va vo vb) .h last ∧
    run (.vstxW m va vo vb) .w last ∧ run (.vstxuB m va vo vb) .b any ∧
    run (.vstxuH m va vo vb) .h any ∧ run (.vstxuW m va vo vb) .w any

/-- R65, R211: a base register that is not a multiple of the access width faults, whatever `VL` and
the mask are; a store or `vfst` that would reach the program text is refused before that. Log
entries 25, 36. -/
def Obligations.MisalignedBaseFaults : Prop :=
  ∀ (s : State) (m : MaskSel) (vr vo : VReg) (vb : VBase) (vs : VStride) (vi : VInc),
    (∀ p ∈ loadForms s m vr vo vb vs vi ++ storeForms s m vr vo vb vs vi,
      widthAvailable s.cfg p.2.1 = true → (s.base vb : Int) % p.2.1.bytes ≠ 0 →
      (storesToMemory p.1 = true → avoidsCode s p.2.1.bytes m p.2.2) →
      exec p.1 s = .fault (.misaligned (s.base vb) p.2.1.bytes)) ∧
    (∀ fd, reservedFlag fd = false → (s.base vb : Int) % (s.cfg.w / 8 : Nat) ≠ 0 →
      ∀ i ∈ [Instr.vfld fd vb vi, .vfst fd vb vi],
        (storesToMemory i = true → flagBytesAvoidCode s vb) →
        exec i s = .fault (.misaligned (s.base vb) (s.cfg.w / 8)))

/-- R211, R225, R226: the first active VP whose access is not legal faults, and the fault says why;
of the `K` bytes of `vfld` and `vfst`, the first that is not legal. A store or `vfst` that would
reach the program text is refused before that. Log entries 25, 36. -/
def Obligations.FirstIllegalAccessFaults : Prop :=
  ∀ (s : State) (m : MaskSel) (vr vo : VReg) (vb : VBase) (vs : VStride) (vi : VInc) (k : Nat),
    (∀ p ∈ loadForms s m vr vo vb vs vi ++ storeForms s m vr vo vb vs vi,
      let n := p.2.1.bytes
      let a := p.2.2 k
      widthAvailable s.cfg p.2.1 = true → (s.base vb : Int) % n = 0 →
      (storesToMemory p.1 = true → avoidsCode s n m p.2.2) →
      k < s.cfg.mvl → s.active m k = true →
      (∀ j, j < k → s.active m j = true → legalAccess s.cfg (p.2.2 j) n) →
      (a % n ≠ 0 → exec p.1 s = .fault (.misaligned a n)) ∧
      (a % n = 0 → a < 0 ∨ 2 ^ 32 < a + n → exec p.1 s = .fault (.addrRange a)) ∧
      (a % n = 0 → 0 ≤ a → a + n ≤ 2 ^ 32 →
        (∃ j, j < n ∧ plainByte s.cfg (a.toNat + j) = false) →
        exec p.1 s = .fault (.memUnmapped a))) ∧
    (∀ fd, reservedFlag fd = false → (s.base vb : Int) % (s.cfg.w / 8 : Nat) = 0 →
      k < s.flagBytes → (∀ j, j < k → legalAccess s.cfg (s.flagAddr vb j) 1) →
      ∀ i ∈ [Instr.vfld fd vb vi, .vfst fd vb vi],
        (storesToMemory i = true → flagBytesAvoidCode s vb) →
        (2 ^ 32 ≤ s.base vb + k → exec i s = .fault (.addrRange (s.base vb + k))) ∧
        (s.base vb + k < 2 ^ 32 → plainByte s.cfg (s.base vb + k) = false →
          exec i s = .fault (.memUnmapped (s.base vb + k))))

/-- R67, R74, R211: an access width outside `MemMinWidth .. VPUW` is refused; so is a store that
would reach the program text (`vfst` included), whatever its base and its other accesses are. Log
entries 24, 25, 26. -/
def Obligations.WidthAndCodeRefusals : Prop :=
  ∀ (s : State) (m : MaskSel) (vr vo : VReg) (vb : VBase) (vs : VStride) (vi : VInc),
    (∀ p ∈ loadForms s m vr vo vb vs vi ++ storeForms s m vr vo vb vs vi,
      (p.2.1.bits < s.cfg.memMinWidth.bits ∨ s.cfg.w < p.2.1.bits) →
      exec p.1 s = .refused .widthNotAvailable) ∧
    (∀ p ∈ storeForms s m vr vo vb vs vi, widthAvailable s.cfg p.2.1 = true →
      (∃ k, k < s.cfg.mvl ∧ s.active m k = true ∧ s.hitsCode p.2.1.bytes (p.2.2 k) = true) →
      exec p.1 s = .refused .storeToCode) ∧
    (∀ fd, reservedFlag fd = false →
      (∃ j, j < s.flagBytes ∧ s.hitsCode 1 (s.flagAddr vb j) = true) →
      exec (.vfst fd vb vi) s = .refused .storeToCode)

/-- R225 with D20: `vfld` loads the bits below `VL` from `K` bytes; the bits from `VL` to `8K - 1`
are free, those beyond keep their values. Log entry 28. -/
def Obligations.FlagLoad : Prop :=
  ∀ (s : State) (fd : FReg) (vb : VBase) (vi : VInc), reservedFlag fd = false →
    legalFlagAccess s vb →
    completes (.vfld fd vb vi) s { f := [fd], c := [baseCreg vb] } fun t =>
      flagsAfter s t fd (fun i => i < s.vlen) (fun i => s.vlen ≤ i ∧ 8 * s.flagBytes ≤ i)
        (fun i b => b = (s.mem.read (s.base vb + i / 8)).getLsbD (i % 8)) ∧
      baseIncremented s t vb vi

/-- R226 with D20: `vfst` stores the flags below `VL` into `K` bytes, element `8j + b` in bit `b`
of byte `j`; the padding bits are free and no other byte changes. Log entry 28. -/
def Obligations.FlagStore : Prop :=
  ∀ (s : State) (fd : FReg) (vb : VBase) (vi : VInc), reservedFlag fd = false →
    legalFlagAccess s vb → flagBytesAvoidCode s vb →
    completes (.vfst fd vb vi) s { mem := true, c := [baseCreg vb] } fun t =>
      (∀ i, i < s.vlen → (t.mem.read (s.base vb + i / 8)).getLsbD (i % 8) = s.felem fd i) ∧
      (∀ a, ¬ (s.base vb ≤ a ∧ a < s.base vb + s.flagBytes) → t.mem.read a = s.mem.read a) ∧
      baseIncremented s t vb vi

/-! ### Local memory -/

/-- R223, R230, R41: a local load. Log entry 29. -/
def Obligations.LocalLoads : Prop :=
  ∀ (s : State) (m : MaskSel) (vd va : VReg), s.cfg.lMemN ≠ 0 →
    (∀ k, k < s.cfg.mvl → s.active m k = true → s.localAddr va k < localWords s.cfg ∧
      (s.localRead k (s.localAddr va k)).isSome = true) →
    completes (.vldlVV m vd va) s { v := [vd] } fun t =>
      elementsAfter s t vd (fun k => s.active m k = true) fun k e =>
        s.localRead k (s.unsignedAt (.vec va) k) = some e

/-- R224, R230, R41: the local stores; every active VP's word holds its data, every other word is
as before, and main memory is not touched. Log entry 29. -/
def Obligations.LocalStores : Prop :=
  ∀ (s : State) (m : MaskSel) (va vb : VReg) (rs : SReg), s.cfg.lMemN ≠ 0 →
    (s.cfg.lMemShare = true → s.vlen ≤ s.cfg.nLane) →
    (∀ k, k < s.cfg.mvl → s.active m k = true → s.localAddr va k < localWords s.cfg) →
    let stored := fun (b : Source) (t : State) =>
      (∀ k, k < s.cfg.mvl → s.active m k = true → ∃ e,
        t.localRead k (s.localAddr va k) = some e ∧ e.toNat = s.unsignedAt b k) ∧
      (∀ j a, a < 2 ^ 32 → (∀ k, k < s.cfg.mvl → s.active m k = true →
          ¬ (localBlock s.cfg k = localBlock s.cfg j ∧ s.localAddr va k = a)) →
        t.localRead j a = s.localRead j a)
    completes (.vstlVV m va vb) s { lmem := true } (stored (.vec vb)) ∧
    completes (.vstlVS m va rs) s { lmem := true } (stored (.scalar rs))

/-- R230: an address outside the section or block faults, the first such active VP being reported
(for `vldl` the VPs before it read words that have been written); a word that nothing has written
faults; `vstl` in a shared block needs `VL` at most `NLane`, `vldl` does not; without local memory
all three are refused. Log entries 5, 29. -/
def Obligations.LocalMemoryStops : Prop :=
  ∀ (s : State) (m : MaskSel) (vd va vb : VReg) (rs : SReg) (k : Nat),
    (s.cfg.lMemN = 0 → ∀ i ∈ [Instr.vldlVV m vd va, .vstlVV m va vb, .vstlVS m va rs],
      exec i s = .refused .featureOff) ∧
    (s.cfg.lMemN ≠ 0 → s.cfg.lMemShare = true → s.cfg.nLane < s.vlen →
      ∀ i ∈ [Instr.vstlVV m va vb, .vstlVS m va rs], exec i s = .refused .sharedLocalWrite) ∧
    (s.cfg.lMemN ≠ 0 → k < s.cfg.mvl → s.active m k = true → localWords s.cfg ≤ s.localAddr va k →
      (∀ j, j < k → s.active m j = true → s.localAddr va j < localWords s.cfg) →
      ((∀ j, j < k → s.active m j = true → (s.localRead j (s.localAddr va j)).isSome = true) →
        exec (.vldlVV m vd va) s = .fault (.localMemRange k (s.localAddr va k))) ∧
      ((s.cfg.lMemShare = true → s.vlen ≤ s.cfg.nLane) →
        ∀ i ∈ [Instr.vstlVV m va vb, .vstlVS m va rs],
          exec i s = .fault (.localMemRange k (s.localAddr va k)))) ∧
    (s.cfg.lMemN ≠ 0 → k < s.cfg.mvl → s.active m k = true →
      s.localAddr va k < localWords s.cfg → s.localRead k (s.localAddr va k) = none →
      (∀ j, j < k → s.active m j = true → s.localAddr va j < localWords s.cfg ∧
        (s.localRead j (s.localAddr va j)).isSome = true) →
      exec (.vldlVV m vd va) s = .fault (.readBeforeWrite k (s.localAddr va k)))

/-! ### Vector processing -/

/-- R241: every VP below `VL` copies one of the two sources, as its mask bit says. Log entry 16. -/
def Obligations.Merges : Prop :=
  ∀ (s : State) (m : MaskSel) (vd va vb : VReg) (rs : SReg),
    let merged := fun i (a b : Source) =>
      completes i s { v := [vd], f := [16, 17] } fun t =>
        elementsAfter s t vd (fun k => k < s.vlen) fun k e =>
          e = if s.felem (maskFlag m) k = true then s.source b k else s.source a k
    merged (.vmergeVV m vd va vb) (.vec va) (.vec vb) ∧
    merged (.vmergeVS m vd va rs) (.vec va) (.scalar rs) ∧
    merged (.vmergeSV m vd rs vb) (.scalar rs) (.vec vb)

/-- R242, R243: `VL` elements go from the front of `vA` to `vindex` onward, and back; the refusals.
Log entry 30. -/
def Obligations.VectorInsertAndExtract : Prop :=
  ∀ (s : State) (vd va : VReg), s.cfg.vmanip = true →
    let start := s.vindex.toNat % s.cfg.mvl
    (vd ≠ va → start + s.vlen ≤ s.cfg.mvl →
      completes (.vinsVV vd va) s { v := [vd], f := [16, 17] } (fun t =>
        elementsAfter s t vd (fun k => start ≤ k ∧ k < start + s.vlen) fun k e =>
          e = s.velem va (k - start)) ∧
      completes (.vextVV vd va) s { v := [vd], f := [16, 17] } (fun t =>
        elementsAfter s t vd (fun k => k < s.vlen) fun k e => e = s.velem va (start + k))) ∧
    (∀ i ∈ [Instr.vinsVV vd va, .vextVV vd va],
      (vd = va → exec i s = .refused .sameRegister) ∧
      (vd ≠ va → s.cfg.mvl < start + s.vlen → exec i s = .refused .insertExtractOutOfRange))

/-- R244 to R246, R261: the element that `vindex` names goes between a scalar register and a vector
or a flag register; `VL` and the masks do not matter. Log entries 13, 31. -/
def Obligations.ScalarInsertAndExtract : Prop :=
  ∀ (s : State) (vd va : VReg) (fd : FReg) (rs : SReg),
    let at' := s.vindex.toNat % s.cfg.mvl
    completes (.vinsVS vd rs) s { v := [vd], f := [16, 17] } (fun t =>
      elementsAfter s t vd (fun k => k = at') fun _ e =>
        e.toNat = (s.xreg rs).toNat % 2 ^ s.cfg.w) ∧
    completes (.vextVS rs va) s { x := [rs], f := [16, 17] } (fun t =>
      (t.xreg rs).toInt = if rs = 0 then 0 else signedOf s.cfg (s.velem va at')) ∧
    completes (.vextuVS rs va) s { x := [rs], f := [16, 17] } (fun t =>
      (t.xreg rs).toNat = if rs = 0 then 0 else unsignedOf s.cfg (s.velem va at')) ∧
    (reservedFlag fd = false →
      completes (.vfinsVS fd rs) s { f := [fd] } fun t =>
        flagsAfter s t fd (fun k => k = at') (fun k => k ≠ at') fun _ b =>
          b = (s.xreg rs).getLsbD 0)

/-- R247, R248: `vcomp` gathers the unmasked elements at the front of `vD`, `vexpand` spreads the
first elements of `vA` over the unmasked positions; both refuse `vD = vA`. Log entry 30. -/
def Obligations.CompressAndExpand : Prop :=
  ∀ (s : State) (m : MaskSel) (vd va : VReg),
    (vd ≠ va →
      completes (.vcomp m vd va) s { v := [vd], f := [16, 17] } (fun t =>
        elementsAfter s t vd (fun k => k < unmaskedBelow s m s.cfg.mvl) fun k e =>
          ∃ i, i < s.cfg.mvl ∧ s.active m i = true ∧ unmaskedBelow s m i = k ∧
            e = s.velem va i) ∧
      completes (.vexpand m vd va) s { v := [vd], f := [16, 17] } (fun t =>
        elementsAfter s t vd (fun k => s.active m k = true) fun k e =>
          e = s.velem va (unmaskedBelow s m k))) ∧
    (vd = va → ∀ i ∈ [Instr.vcomp m vd va, .vexpand m vd va], exec i s = .refused .sameRegister)

/-- R248: `vexpand` undoes `vcomp` under the same mask and `VL`, for destinations other than `vr0`,
which holds nothing. -/
def Obligations.ExpandUndoesCompress : Prop :=
  ∀ (s t u : State) (m : MaskSel) (vd va ve : VReg), vd ≠ 0 → ve ≠ 0 →
    exec (.vcomp m vd va) s = .next t → exec (.vexpand m ve vd) t = .next u →
    ∀ k, k < s.cfg.mvl →
      u.velem ve k = if s.active m k = true then s.velem va k else s.velem ve k

/-- R249: `vupshift` moves every element one place down and the first to the end; `MVL` applications
restore the register. -/
def Obligations.Upshifts : Prop :=
  ∀ (s : State) (vd va : VReg), s.cfg.vupshift = true →
    completes (.vupshift vd va) s { v := [vd], f := [16, 17] } (fun t =>
      elementsAfter s t vd (fun _ => True) fun k e => e = s.velem va ((k + 1) % s.cfg.mvl)) ∧
    ∀ run : Nat → State, run 0 = s →
      (∀ n, n < s.cfg.mvl → exec (.vupshift vd vd) (run n) = .next (run (n + 1))) →
      ∀ k, k < s.cfg.mvl → (run s.cfg.mvl).velem vd k = s.velem vd k

/-- R162, R17, R193 to R196, R249, R242, R243: instructions of a unit the instance does not have are
refused; ProductHalves says it of the integer products. Log entry 22. -/
def Obligations.AbsentUnitsRefuse : Prop :=
  ∀ (s : State) (m : MaskSel) (vd va vb : VReg) (rs : SReg),
    (s.cfg.macl = 0 ∨ s.cfg.w = 32 →
      ∀ i ∈ [Instr.vmacVV m va vb, .vmacVS m va rs, .vmacuVV m va vb, .vmacuVS m va rs, .vccacc vd,
        .vcczacc vd], exec i s = .refused .featureOff) ∧
    (s.cfg.macl = 0 ∨ s.cfg.w = 32 → s.cfg.fixedPoint = true →
      ∀ i ∈ [Instr.vxccacc vd, .vxcczacc vd], exec i s = .refused .featureOff) ∧
    (s.cfg.fixedPoint = true → s.cfg.vmult = false →
      ∀ i ∈ [Instr.vxmulhiVV m vd va vb, .vxmulhiVS m vd va rs, .vxmulhiuVV m vd va vb,
        .vxmulhiuVS m vd va rs, .vxmulloVV m vd va vb, .vxmulloVS m vd va rs,
        .vxmullouVV m vd va vb, .vxmullouVS m vd va rs], exec i s = .refused .featureOff) ∧
    (s.cfg.vupshift = false → exec (.vupshift vd va) s = .refused .featureOff) ∧
    (s.cfg.vmanip = false → ∀ i ∈ [Instr.vinsVV vd va, .vextVV vd va],
      exec i s = .refused .featureOff)

/-! ### Flag processing -/

/-- R262 to R265: the flag logical operations on the elements below `VL`. Log entry 31. -/
def Obligations.FlagLogic : Prop :=
  ∀ (s : State) (fd fa fb : FReg) (rs : SReg), reservedFlag fd = false → reservedFlag fa = false →
    let writes := fun i (value : Nat → Bool) =>
      completes i s { f := [fd] } fun t =>
        flagsAfter s t fd (fun k => k < s.vlen) (fun k => s.vlen ≤ k) fun k b => b = value k
    let bit := (s.xreg rs).getLsbD 0
    (reservedFlag fb = false →
      writes (.vfandVV fd fa fb) (fun k => s.felem fa k && s.felem fb k) ∧
      writes (.vforVV fd fa fb) (fun k => s.felem fa k || s.felem fb k) ∧
      writes (.vfxorVV fd fa fb) (fun k => s.felem fa k ^^ s.felem fb k) ∧
      writes (.vfnorVV fd fa fb) (fun k => !(s.felem fa k || s.felem fb k))) ∧
    writes (.vfandVS fd fa rs) (fun k => s.felem fa k && bit) ∧
    writes (.vforVS fd fa rs) (fun k => s.felem fa k || bit) ∧
    writes (.vfxorVS fd fa rs) (fun k => s.felem fa k ^^ bit) ∧
    writes (.vfnorVS fd fa rs) (fun k => !(s.felem fa k || bit)) ∧
    (∀ p ∈ [(Instr.vfandVV fd fa fb, 0b000_100), (.vfandVS fd fa rs, 0b011_100),
        (.vforVV fd fa fb, 0b000_110), (.vforVS fd fa rs, 0b011_110),
        (.vfxorVV fd fa fb, 0b000_111), (.vfxorVS fd fa rs, 0b011_111),
        (.vfnorVV fd fa fb, 0b000_101), (.vfnorVS fd fa rs, 0b011_101)],
      hasCell p.1 0x3E 1 p.2)

/-- R266, R267: clearing and setting the elements below `VL`. -/
def Obligations.FlagConstants : Prop :=
  ∀ (s : State) (fd : FReg), reservedFlag fd = false →
    let writes := fun i (value : Bool) =>
      completes i s { f := [fd] } fun t =>
        flagsAfter s t fd (fun k => k < s.vlen) (fun k => s.vlen ≤ k) fun _ b => b = value
    writes (.vfclr fd) false ∧ writes (.vfset fd) true ∧
    hasCell (.vfclr fd) 0x3E 1 0b000_000 ∧ hasCell (.vfset fd) 0x3E 1 0b000_001

/-- R269, R270: the place of the first and of the last set bit below `VL`, or `VL`. Log entries 13,
31. -/
def Obligations.FlagSearches : Prop :=
  ∀ (s : State) (rs : SReg) (fa : FReg), reservedFlag fa = false →
    let finds := fun i (place : Nat → Prop) =>
      completes i s { x := [rs] } fun t => ∃ p, place p ∧
        (rs = 0 → (t.xreg rs).toNat = 0) ∧ (rs ≠ 0 → (t.xreg rs).toNat = p)
    finds (.vfff1 rs fa) (isFirstSet s fa) ∧ finds (.vffl1 rs fa) (isLastSet s fa) ∧
    hasCell (.vfff1 rs fa) 0x3E 1 0b001_000 ∧ hasCell (.vffl1 rs fa) 0x3E 1 0b001_001

/-- R268: no word decodes to `vfpop`; what it would do is to count the set bits below `VL`. Log
entry 32. -/
def Obligations.PopulationCount : Prop :=
  ∀ (s : State) (rs : SReg) (fa : FReg),
    (∀ (c : Config) (w : Word), decodeWord c w ≠ .instr (.vfpop rs fa)) ∧
    (reservedFlag fa = false → completes (.vfpop rs fa) s { x := [rs] } fun t =>
      (t.xreg rs).toNat = if rs = 0 then 0
        else ((Finset.range s.vlen).filter fun k => s.felem fa k = true).card)

/-- R271 to R273 with R275: the elements below `VL` before, up to, or at the first set bit; the
elements from `VL` on are free. Log entry 31. -/
def Obligations.FlagScans : Prop :=
  ∀ (s : State) (fd fa : FReg), reservedFlag fd = false → reservedFlag fa = false →
    let sets := fun i (value : Nat → Nat → Prop) => ∃ p, isFirstSet s fa p ∧
      completes i s { f := [fd] } fun t =>
        flagsAfter s t fd (fun k => k < s.vlen) (fun _ => False) fun k b => (b = true ↔ value p k)
    sets (.vfsetbf fd fa) (fun p k => k < p) ∧ sets (.vfsetif fd fa) (fun p k => k ≤ p) ∧
    sets (.vfsetof fd fa) (fun p k => k = p) ∧
    hasCell (.vfsetbf fd fa) 0x3E 1 0b010_001 ∧ hasCell (.vfsetif fd fa) 0x3E 1 0b010_010 ∧
    hasCell (.vfsetof fd fa) 0x3E 1 0b010_000

/-- R26: every instruction that names `$vf18` to `$vf29` is refused, whatever the state is. Log
entry 18. -/
def Obligations.UnusedFlagRegistersRefuse : Prop :=
  ∀ (s : State) (m : MaskSel) (va vb : VReg) (rs : SReg) (fd fa fb : FReg) (ba : VBase) (vi : VInc),
    ∀ p ∈ flagForms m va vb rs fd fa fb ba vi, (∃ f ∈ p.2, 18 ≤ f.val ∧ f.val ≤ 29) →
      exec p.1 s = .refused .reservedFlagRegister

/-! ### Control registers -/

/-- R280, R32 to R34, R37: `vmstc` copies all 32 bits into every writable control register, and is
refused for the others and for a `VL` above `MVL`. Log entry 19. -/
def Obligations.ControlWrites : Prop :=
  ∀ (s : State) (vc : CReg) (rs : SReg),
    let reserved := 4 ≤ vc.val ∧ vc.val ≤ 27
    let static := vc.val = 1 ∨ (28 ≤ vc.val ∧ vc.val ≤ 31)
    let tooLong := vc = 0 ∧ s.cfg.mvl < (s.xreg rs).toNat
    (¬ reserved → ¬ static → ¬ tooLong →
      completes (.vmstc vc rs) s { c := [vc] } fun t => t.creg vc = some (s.xreg rs)) ∧
    (reserved → exec (.vmstc vc rs) s = .refused .reservedControlRegister) ∧
    (static → exec (.vmstc vc rs) s = .refused .staticControlRegister) ∧
    (tooLong → exec (.vmstc vc rs) s = .refused .vlOutOfRange)

/-- R281, R34, R37: `vmcts` copies a control register, the static ones holding the parameters of
the instance; the numbers that are not defined are refused. Log entries 2, 13, 19. -/
def Obligations.ControlReads : Prop :=
  ∀ (s : State) (vc : CReg) (rs : SReg),
    let reads := fun (a : Word) => completes (.vmcts rs vc) s { x := [rs] } fun t =>
      t.xreg rs = if rs = 0 then 0 else a
    (4 ≤ vc.val ∧ vc.val ≤ 27 → exec (.vmcts rs vc) s = .refused .reservedControlRegister) ∧
    (vc = 0 → reads s.vl) ∧ (vc = 1 → reads (BitVec.ofNat 32 s.cfg.w)) ∧ (vc = 2 → reads s.vindex) ∧
    (vc = 3 → reads s.vshamt) ∧ (vc = 28 → reads (BitVec.ofNat 32 s.cfg.accNcopy)) ∧
    (vc = 29 → reads (BitVec.ofNat 32 s.cfg.nLane)) ∧
    (vc = 30 → reads (BitVec.ofNat 32 s.cfg.mvl)) ∧
    (vc = 31 → reads (BitVec.ofNat 32 s.cfg.logMvl)) ∧
    (∀ k : VStride, vc.val = 32 + k.val → reads (s.vstride.get k)) ∧
    (∀ k : VInc, vc.val = 40 + k.val → reads (s.vinc.get k)) ∧
    (∀ k : VBase, vc.val = 48 + k.val → reads (s.vbase.get k))

/-! ### Encoding and the step -/

/-- Decoding the word of a well-formed instruction gives it back, with every operand, under the
default field layout (R93 to R108, R125). Log entries 7, 8. -/
def Obligations.DecodeOfEncode : Prop :=
  ∀ (c : Config) (i : Instr), c.layout = FieldLayout.r93 → i.wellFormed c = true →
    ∃ w, encode c.layout i = some w ∧ decodeWord c w = .instr i

/-- A word that decodes to an instruction is the word that instruction encodes to, so every other
word of opcodes 0x3D to 0x3F is reserved (R100, R109). Log entries 7, 8. -/
def Obligations.EncodeOfDecode : Prop :=
  ∀ (c : Config) (w : Word), c.layout = FieldLayout.r93 →
    (∀ i, decodeWord c w = .instr i → i.wellFormed c = true ∧ encode c.layout i = some w) ∧
    (w.toNat % 64 ∉ [0x3D, 0x3E, 0x3F] ↔ decodeWord c w = .scalar) ∧ decodeWord c w ≠ .truncated

/-- Words written out from the encoding rules decode to the instructions they stand for. Log entry
7. -/
def Obligations.WrittenWordsDecode : Prop :=
  ∀ p ∈ [(0xF9FFDC7D, Instr.vsubSV .vfmask0 63 31 62), (0x24010D7D, .vabsVV .vfmask0 4 9),
      (0x08943F7D, .vcmpltuSV .vfmask1 16 9 2), (0x1C3032FD, .vmacuVS .vfmask1 7 3),
      (0x00014E3D, .vcczacc 5), (0x1001DABD, .vextuVS 7 4), (0x007118FD, .vinsVS 4 7),
      (0x0800ECBD, .vcomp .vfmask1 3 2), (0xE0F0483F, .vldW .vfmask0 1 15 7),
      (0x2C2264BF, .vldsH .vfmask1 9 2 3 1), (0x0410A97F, .vstxuW .vfmask1 2 1 1),
      (0x04601C7F, .vstlVS .vfmask0 1 6), (0x00308CFF, .vfst 2 3 0), (0x043097BE, .vforVS 2 1 3),
      (0x0801D27E, .vffl1 7 2), (0x0099DA3E, .vmstc 39 9), (0xFC021A7E, .vmcts 8 63),
      (0x0850CC7E, .vssubSV .vfmask0 3 5 2)],
    decodeWord Config.tc1 p.1 = .instr p.2

/-- R44, R74, R125: where the word at the `pc` decodes to an instruction, the step runs it; in
particular the word of a well-formed instruction. Log entry 6. -/
def Obligations.StepRunsDecodedInstruction : Prop :=
  ∀ (s : State) (w : Word) (i : Instr), standsAt s w →
    (decodeWord s.cfg w = .instr i → step s = exec i s) ∧
    (s.cfg.layout = FieldLayout.r93 → i.wellFormed s.cfg = true → encode s.cfg.layout i = some w →
      step s = exec i s)

/-- R109, R300, R324: a step where no vector instruction stands: a reserved word is refused, a word
of another opcode is a step of the scalar core, which leaves all vector state alone, and outside
the program there is no step. Log entries 12, 35. -/
def Obligations.StepOfOtherWords : Prop :=
  ∀ (s : State) (w : Word),
    (standsAt s w → decodeWord s.cfg w = .reserved → step s = .refused .reservedEncoding) ∧
    (standsAt s w → s.cfg.layout = FieldLayout.r93 → w.toNat % 64 ∉ [0x3D, 0x3E, 0x3F] →
      ∃ t, step s = .next t ∧ t.v = s.v ∧ t.f = s.f ∧ (∀ n, t.creg n = s.creg n) ∧ t.acc = s.acc ∧
        t.lmem = s.lmem ∧ t.xreg 0 = s.xreg 0 ∧ t.cfg = s.cfg ∧ t.program = s.program ∧
        t.startPC = s.startPC ∧
        ∀ a, plainByte s.cfg a = false → t.mem.read a = s.mem.read a) ∧
    (s.pc.toNat = s.startPC.toNat + 4 * s.program.length → step s = .refused .runEnded) ∧
    ((∀ n, n ≤ s.program.length → s.pc.toNat ≠ s.startPC.toNat + 4 * n) →
      step s = .refused .pcOutsideProgram)

/-! ### The whole machine -/

/-- R44, R282: every instruction that completes moves the `pc` to the next word and nowhere else,
and none reads it. Log entry 14. -/
def Obligations.ProgramCounter : Prop :=
  ∀ (i : Instr) (s t : State) (p : Word), exec i s = .next t →
    t.pc = s.pc + 4 ∧ exec i { s with pc := p } = .next { t with pc := p + 4 }

/-- R22, R30, R32, R38, R41, R60: what no instruction of another kind changes: the accumulators,
the local memory, main memory, a scalar register, `VL`, the elements from `VL` on, the parameters
and the program. Log entry 16. -/
def Obligations.OnlyTheirInstructionsWrite : Prop :=
  ∀ (i : Instr) (s t : State), exec i s = .next t →
    (usesAccumulators i = false → t.acc = s.acc) ∧
    (storesToLocalMemory i = false → t.lmem = s.lmem) ∧
    (storesToMemory i = false → t.mem = s.mem) ∧
    (∀ r, scalarDestination i ≠ some r → t.xreg r = s.xreg r) ∧
    (setsVl i = false → t.vl = s.vl) ∧
    (reachesBeyondVl i = false → ∀ r k, s.vlen ≤ k → k < s.cfg.mvl → t.velem r k = s.velem r k) ∧
    t.cfg = s.cfg ∧ t.program = s.program ∧ t.startPC = s.startPC

/-- R14: a masked integer, logical, fixed-point or compare instruction that works element by element
neither reads nor writes the elements of the VPs that are not active: whatever they hold, the active
elements and the flags come out the same, and the others are left as they are. Log entries 16, 20. -/
def Obligations.InactiveElementsAreNotRead : Prop :=
  ∀ (s t : State) (v : Vector (List Elem) 64) (n : Width) (m : MaskSel) (vd va vb : VReg) (fd : FReg)
    (rs : SReg),
    let s' : State := { s with v := v }
    (∀ r k, s.active m k = true → s'.velem r k = s.velem r k) →
    ∀ i ∈ elementForms m vd va vb rs ++ fixedPointElementForms n m vd va vb rs ++
        compareForms m fd va vb rs, exec i s = .next t →
      ∃ t', exec i s' = .next t' ∧ t'.f = t.f ∧ ∀ r k, k < s.cfg.mvl →
        (s.active m k = true → t'.velem r k = t.velem r k) ∧
        (s.active m k = false → t'.velem r k = s'.velem r k ∧ t.velem r k = s.velem r k)

/-- Every step keeps the invariant of the machine (R20, R23, R33, R38, R41, R61): the shape of
every register file, a legal `VL`, the canonical form of the memories, and only plain memory
listed. Log entries 9, 37. -/
def Obligations.InvariantKept : Prop :=
  ∀ s t : State, Inv s → step s = .next t → Inv t

/-- R46, R320: after reset the invariant holds, in every instance, and what the spec fixes has its
value: the `pc`, `vr0`, `$vf30`, `$vf31` and the static control registers. Log entries 1, 2, 9. -/
def Obligations.ResetState : Prop :=
  Inv State.reset ∧ State.reset.pc = 0x00001000 ∧
  ∀ (c : Config) (start : Word), validConfig c = true →
    let s := State.resetOf c start
    Inv s ∧ s.pc = start ∧ s.startPC = start ∧ (∀ k, s.velem 0 k = 0) ∧
    (∀ k, s.felem 30 k = false) ∧ (∀ k, s.felem 31 k = true) ∧
    s.creg 1 = some (BitVec.ofNat 32 c.w) ∧ s.creg 28 = some (BitVec.ofNat 32 c.accNcopy) ∧
    s.creg 29 = some (BitVec.ofNat 32 c.nLane) ∧ s.creg 30 = some (BitVec.ofNat 32 c.mvl) ∧
    s.creg 31 = some (BitVec.ofNat 32 c.logMvl)
end

