-- ==== Sys2Proof/Tests/Slice0.lean ====
section
/-! SUPPORT. Tests and witnesses. The instruction words are written out field by field from the
formats of R94 to R101 and the codes of R103 to R107 (spec/opcode_table.json); the expected results
are those of 95_test_vectors.md sections 3 and 4, or are worked out from the rule that is cited. The
last part shows, for every statement with hypotheses, a state and operands that meet them. -/

open Sys2Proof Sys2Proof.Machine

namespace Sys2Proof.Tests

/-! ### Small states -/

/-- A state of an instance after reset, with a vector length and the first elements of `vr1`,
`vr2`, ... given. -/
def start (c : Config) (vl : Nat) (v : List (List Elem)) : State :=
  { State.resetOf c 0x1000 with
    vl := BitVec.ofNat 32 vl
    v := Vector.ofFn fun r => if r = 0 then [] else v.getD (r.val - 1) [] }

/-- Give the first flag registers their first bits. -/
def flags (f : List (List Bool)) (s : State) : State :=
  { s with f := Vector.ofFn fun q => f.getD q.val [] }

/-- Every base register, every stride and every increment. -/
def memRegs (base stride inc : Word) (s : State) : State :=
  { s with
    vbase := Vector.replicate 16 base
    vstride := Vector.replicate 8 stride
    vinc := Vector.replicate 8 inc }

/-- Every scalar register but `r0`. -/
def scalars (a : Word) (s : State) : State := { s with x := Vector.replicate 32 a }

/-- Bytes of main memory from an address on. -/
def bytes (a : Nat) (l : List Byte) (s : State) : State :=
  { s with mem := (List.range l.length).foldl (fun m j => m.write (a + j) (l.getD j 0)) s.mem }

/-- One accumulator per value, each written. -/
def accs (l : List Nat) (s : State) : State :=
  { s with acc := l.map fun a => { value := a, written := true } }

/-- The next state, if there is one. -/
def next? : Result → Option State
  | .next t => some t
  | _ => none

/-- The instruction answers a next state. -/
def runs (r : Result) : Bool := (next? r).isSome

theorem runs_next {r : Result} (h : runs r = true) : ∃ t, r = .next t := by
  cases r with
  | next t => exact ⟨t, rfl⟩
  | fault e => cases h
  | refused e => cases h

/-- Elements `0 .. n-1` of a vector register in the next state. -/
def elems (r : VReg) (n : Nat) (a : Result) : Option (List Elem) :=
  (next? a).map fun t => (List.range n).map (t.velem r)

/-- Bits `0 .. n-1` of a flag register in the next state. -/
def bits (q : FReg) (n : Nat) (a : Result) : Option (List Bool) :=
  (next? a).map fun t => (List.range n).map (t.felem q)

/-- A scalar register in the next state. -/
def scalar (r : SReg) (a : Result) : Option Word := (next? a).map (·.xreg r)

/-- A control register in the next state. -/
def control (n : CReg) (a : Result) : Option Word := (next? a).bind (·.creg n)

/-- Bytes of main memory in the next state. -/
def memory (a n : Nat) (r : Result) : Option (List Byte) :=
  (next? r).map fun t => (List.range n).map fun j => t.mem.read (a + j)

/-- The accumulators in the next state. -/
def accumulated (a : Result) : Option (List Nat) := (next? a).map fun t => t.acc.map (·.value)

/-- Words of the local memory of VPs `0, 1, ...` in the next state. -/
def localWordsAt (l : List Nat) (a : Result) : Option (List (Option Elem)) :=
  (next? a).map fun t => (List.range l.length).map fun i => t.localRead i (l.getD i 0)

/-- The instruction stops with this fault. -/
def faults (e : Fault) : Result → Bool
  | .fault e' => e' == e
  | _ => false

/-- The instruction is refused for this reason. -/
def refuses (e : Refusal) : Result → Bool
  | .refused e' => e' == e
  | _ => false

/-! ### Well-formedness -/

theorem test_vfpop_has_no_word : (Instr.vfpop 6 2).wellFormed Config.tc1 = false := by decide
theorem test_vfpop_has_no_encoding : encode FieldLayout.r93 (.vfpop 6 2) = none := by decide

/-- The width of a saturate instruction is the one of `SatWidthField`, `.b` in TC1F. -/
theorem test_saturate_width : ((Instr.vsat .h .vfmask0 3 1).wellFormed Config.tc1f ||
    (Instr.vsatu .w .vfmask0 3 1).wellFormed Config.tc1f ||
    (Instr.vsatsu .h .vfmask0 3 1).wellFormed Config.tc1f) = false := by decide

theorem test_saturate_width_of_instance : (Instr.vsat .b .vfmask0 3 1).wellFormed Config.tc1f &&
    (Instr.vsatu .b .vfmask0 3 1).wellFormed Config.tc1f &&
    (Instr.vsatsu .b .vfmask0 3 1).wellFormed Config.tc1f = true := by decide

/-! ### Instruction words: every constructor, its word written field by field -/

/-- Each word decodes to its instruction, and is the word the encoder writes for it. -/
def decodeAll (l : List (Word × Instr)) : Bool :=
  l.all fun p => decodeWord Config.tc1 p.1 == .instr p.2 && encode FieldLayout.r93 p.2 == some p.1

theorem test_decode_integer_vv_1 : decodeAll [
    (0b010000_010101_001111_1_0_000000_111101, .vaddVV .vfmask1 15 16 21),
    (0b101000_101000_000100_0_0_000001_111101, .vsubVV .vfmask0 4 40 40),
    (0b001101_101000_000000_0_0_000011_111101, .vmacVV .vfmask0 13 40),
    (0b100101_011100_010011_0_0_000100_111101, .vandVV .vfmask0 19 37 28),
    (0b001001_010010_110011_0_0_000110_111101, .vorVV .vfmask0 51 9 18),
    (0b110101_010100_100001_1_0_000111_111101, .vxorVV .vfmask1 33 53 20),
    (0b100101_101111_001010_1_0_001000_111101, .vadduVV .vfmask1 10 37 47),
    (0b010101_101111_011010_0_0_001001_111101, .vsubuVV .vfmask0 26 21 47),
    (0b111101_000000_000000_1_0_001011_111101, .vmacuVV .vfmask1 61 0),
    (0b011111_100011_100001_0_0_001101_111101, .vabsdiffVV .vfmask0 33 31 35),
    (0b101011_111001_010010_1_0_010000_111101, .vsraVV .vfmask1 18 43 57),
    (0b001110_000000_011101_1_0_010001_111101, .vcmpeqVV .vfmask1 29 14 0),
    (0b110011_110010_111110_0_0_010010_111101, .vsllVV .vfmask0 62 51 50),
    (0b001000_001100_110001_1_0_010011_111101, .vsrlVV .vfmask1 49 8 12),
    (0b110111_001010_110001_0_0_010100_111101, .vrotVV .vfmask0 49 55 10),
    (0b101101_100111_011011_1_0_010101_111101, .vcmpltVV .vfmask1 27 45 39),
    (0b010101_100001_001011_1_0_010110_111101, .vdivVV .vfmask1 11 21 33),
    (0b011101_110010_011101_1_0_010111_111101, .vcmpleVV .vfmask1 29 29 50),
    (0b101111_010110_101100_0_0_011000_111101, .vmergeVV .vfmask0 44 47 22),
    (0b111000_001011_010101_0_0_011001_111101, .vcmpneqVV .vfmask0 21 56 11),
    (0b100100_001011_010100_1_0_011101_111101, .vcmpltuVV .vfmask1 20 36 11),
    (0b011110_010011_100101_1_0_011110_111101, .vdivuVV .vfmask1 37 30 19),
    (0b010011_011111_000011_1_0_011111_111101, .vcmpleuVV .vfmask1 3 19 31),
    (0b101111_101010_101011_0_0_100001_111101, .vmaxVV .vfmask0 43 47 42),
    (0b111001_000000_110010_0_0_100010_111101, .vextVV 50 57)] = true := by decide

theorem test_decode_integer_vv_2 : decodeAll [
    (0b110001_000000_011110_0_0_100011_111101, .vinsVV 30 49),
    (0b001011_110000_001001_0_0_100101_111101, .vminVV .vfmask0 9 11 48),
    (0b100011_100011_110110_0_0_100110_111101, .vmulhiVV .vfmask0 54 35 35),
    (0b010010_000110_011101_0_0_100111_111101, .vmulloVV .vfmask0 29 18 6),
    (0b000100_010100_011010_1_0_101001_111101, .vmaxuVV .vfmask1 26 4 20),
    (0b100100_001010_001001_0_0_101101_111101, .vminuVV .vfmask0 9 36 10),
    (0b100000_100100_000101_0_0_101110_111101, .vmulhiuVV .vfmask0 5 32 36),
    (0b100010_011101_101011_1_0_101111_111101, .vmullouVV .vfmask1 43 34 29),
    (0b000000_000000_011011_0_0_110000_111101, .vccacc 27),
    (0b010110_000000_010111_0_0_110001_111101, .vupshift 23 22),
    (0b100101_000000_101110_0_0_110010_111101, .vcomp .vfmask0 46 37),
    (0b011101_000000_011111_0_0_110011_111101, .vexpand .vfmask0 31 29),
    (0b100000_000000_001000_0_0_110101_111101, .vabsVV .vfmask0 8 32),
    (0b000000_000000_110101_0_0_111000_111101, .vcczacc 53)] = true := by decide

theorem test_decode_integer_scalar_1 : decodeAll [
    (0b110001_0_00010_011101_1_1_000000_111101, .vaddVS .vfmask1 29 49 2),
    (0b001101_0_10000_010100_0_1_000001_111101, .vsubVS .vfmask0 20 13 16),
    (0b011011_0_10001_000000_1_1_000011_111101, .vmacVS .vfmask1 27 17),
    (0b011100_0_11001_110111_0_1_000100_111101, .vandVS .vfmask0 55 28 25),
    (0b000100_0_00000_011011_1_1_000110_111101, .vorVS .vfmask1 27 4 0),
    (0b111111_0_00011_100101_1_1_000111_111101, .vxorVS .vfmask1 37 63 3),
    (0b111000_0_11110_110001_1_1_001000_111101, .vadduVS .vfmask1 49 56 30),
    (0b011100_0_01101_011010_0_1_001001_111101, .vsubuVS .vfmask0 26 28 13),
    (0b111101_0_10111_000000_1_1_001011_111101, .vmacuVS .vfmask1 61 23),
    (0b110110_0_10101_110011_1_1_001101_111101, .vabsdiffVS .vfmask1 51 54 21),
    (0b100000_0_00001_110111_0_1_010000_111101, .vsraVS .vfmask0 55 32 1),
    (0b011001_0_01000_000111_0_1_010001_111101, .vcmpeqVS .vfmask0 7 25 8),
    (0b111011_0_10110_010000_1_1_010010_111101, .vsllVS .vfmask1 16 59 22),
    (0b100011_0_10111_111110_1_1_010011_111101, .vsrlVS .vfmask1 62 35 23),
    (0b101100_0_10110_111101_0_1_010100_111101, .vrotVS .vfmask0 61 44 22),
    (0b110100_0_00001_011000_1_1_010101_111101, .vcmpltVS .vfmask1 24 52 1),
    (0b010101_0_00001_011100_0_1_010110_111101, .vdivVS .vfmask0 28 21 1),
    (0b101100_0_00101_010101_0_1_010111_111101, .vcmpleVS .vfmask0 21 44 5),
    (0b010100_0_11000_001110_1_1_011000_111101, .vmergeVS .vfmask1 14 20 24),
    (0b101011_0_00101_010101_1_1_011001_111101, .vcmpneqVS .vfmask1 21 43 5),
    (0b001011_0_11001_010100_0_1_011101_111101, .vcmpltuVS .vfmask0 20 11 25),
    (0b010001_0_11111_110111_0_1_011110_111101, .vdivuVS .vfmask0 55 17 31),
    (0b011000_0_00101_001100_1_1_011111_111101, .vcmpleuVS .vfmask1 12 24 5),
    (0b111110_0_10101_011101_0_1_100001_111101, .vmaxVS .vfmask0 29 62 21),
    (0b010111_000000_0_10111_0_1_100010_111101, .vextVS 23 23)] = true := by decide

theorem test_decode_integer_scalar_2 : decodeAll [
    (0b000000_0_11100_011101_0_1_100011_111101, .vinsVS 29 28),
    (0b010010_0_00110_100110_1_1_100101_111101, .vminVS .vfmask1 38 18 6),
    (0b111000_0_11110_010110_1_1_100110_111101, .vmulhiVS .vfmask1 22 56 30),
    (0b101101_0_10001_110010_1_1_100111_111101, .vmulloVS .vfmask1 50 45 17),
    (0b001011_0_01011_000111_1_1_101001_111101, .vmaxuVS .vfmask1 7 11 11),
    (0b100001_000000_0_01001_0_1_101010_111101, .vextuVS 9 33),
    (0b010110_0_01011_011000_1_1_101101_111101, .vminuVS .vfmask1 24 22 11),
    (0b111011_0_10011_000011_0_1_101110_111101, .vmulhiuVS .vfmask0 3 59 19),
    (0b110100_0_00011_111001_1_1_101111_111101, .vmullouVS .vfmask1 57 52 3),
    (0b100111_0_11100_100110_1_1_110000_111101, .vsraSV .vfmask1 38 28 39),
    (0b001101_0_10000_110110_1_1_110001_111101, .vsubSV .vfmask1 54 16 13),
    (0b111111_0_01100_010100_0_1_110010_111101, .vsllSV .vfmask0 20 12 63),
    (0b001010_0_01100_101101_0_1_110011_111101, .vsrlSV .vfmask0 45 12 10),
    (0b111010_0_01100_101101_1_1_110100_111101, .vrotSV .vfmask1 45 12 58),
    (0b011011_0_00111_000000_0_1_110101_111101, .vcmpltSV .vfmask0 0 7 27),
    (0b111000_0_11010_010010_0_1_110110_111101, .vdivSV .vfmask0 18 26 56),
    (0b011110_0_00000_001110_1_1_110111_111101, .vcmpleSV .vfmask1 14 0 30),
    (0b011001_0_10111_100001_0_1_111000_111101, .vmergeSV .vfmask0 33 23 25),
    (0b110100_0_11001_110110_1_1_111001_111101, .vsubuSV .vfmask1 54 25 52),
    (0b111101_0_00011_011011_0_1_111101_111101, .vcmpltuSV .vfmask0 27 3 61),
    (0b111110_0_10001_011010_0_1_111110_111101, .vdivuSV .vfmask0 26 17 62),
    (0b000100_0_11110_000000_0_1_111111_111101, .vcmpleuSV .vfmask0 0 30 4)] = true := by decide

theorem test_decode_fixed_point_1 : decodeAll [
    (0b101000_011010_011000_0_0_000000_111110, .vsaddVV .vfmask0 24 40 26),
    (0b101001_001101_010000_0_0_000001_111110, .vssubVV .vfmask0 16 41 13),
    (0b111101_000000_010010_1_0_000011_111110, .vsat .b .vfmask1 18 61),
    (0b001011_000000_010100_1_0_000100_111110, .vsrr .vfmask1 20 11),
    (0b100011_000000_111010_0_0_000101_111110, .vsls .vfmask0 58 35),
    (0b001100_000100_010010_1_0_000110_111110, .vxmulhiVV .vfmask1 18 12 4),
    (0b101010_010010_001010_1_0_000111_111110, .vxmulloVV .vfmask1 10 42 18),
    (0b100001_101010_000110_0_0_001000_111110, .vsadduVV .vfmask0 6 33 42),
    (0b111101_101000_000001_0_0_001001_111110, .vssubuVV .vfmask0 1 61 40),
    (0b001001_000000_111000_1_0_001011_111110, .vsatu .b .vfmask1 56 9),
    (0b100111_000000_111110_0_0_001100_111110, .vsrru .vfmask0 62 39),
    (0b000110_000000_000101_1_0_001101_111110, .vslsu .vfmask1 5 6),
    (0b011100_100101_100101_0_0_001110_111110, .vxmulhiuVV .vfmask0 37 28 37),
    (0b001001_000111_001100_1_0_001111_111110, .vxmullouVV .vfmask1 12 9 7),
    (0b000000_000000_011011_0_0_010000_111110, .vxccacc 27),
    (0b010111_000000_101000_1_0_010011_111110, .vsatsu .b .vfmask1 40 23),
    (0b000000_000000_000001_0_0_011000_111110, .vxcczacc 1),
    (0b000011_0_01011_010100_1_0_100000_111110, .vsaddVS .vfmask1 20 3 11),
    (0b110101_0_10100_101010_0_0_100001_111110, .vssubVS .vfmask0 42 53 20),
    (0b011001_0_11001_000110_0_0_100110_111110, .vxmulhiVS .vfmask0 6 25 25),
    (0b011101_0_10110_000100_1_0_100111_111110, .vxmulloVS .vfmask1 4 29 22),
    (0b101011_0_00111_111111_0_0_101000_111110, .vsadduVS .vfmask0 63 43 7),
    (0b110000_0_01000_010100_0_0_101001_111110, .vssubuVS .vfmask0 20 48 8),
    (0b010111_0_10100_011111_1_0_101110_111110, .vxmulhiuVS .vfmask1 31 23 20),
    (0b001110_0_01000_111100_1_0_101111_111110, .vxmullouVS .vfmask1 60 14 8)] = true := by decide

theorem test_decode_fixed_point_2 : decodeAll [
    (0b000000_0_11111_000110_1_0_110001_111110, .vssubSV .vfmask1 6 31 0),
    (0b010111_0_10111_011010_0_0_111001_111110, .vssubuSV .vfmask0 26 23 23)] = true := by decide

theorem test_decode_flag_misc : decodeAll [
    (0b000000_000000_000000_0_1_000000_111110, .vfclr 0),
    (0b000000_000000_010100_0_1_000001_111110, .vfset 20),
    (0b001010_011000_000010_0_1_000100_111110, .vfandVV 2 10 24),
    (0b001011_010101_010000_0_1_000101_111110, .vfnorVV 16 11 21),
    (0b001001_011111_001101_0_1_000110_111110, .vforVV 13 9 31),
    (0b001100_011100_010100_0_1_000111_111110, .vfxorVV 20 12 28),
    (0b000010_000000_0_01010_0_1_001000_111110, .vfff1 10 2),
    (0b000101_000000_0_11110_0_1_001001_111110, .vffl1 30 5),
    (0b011101_000000_011000_0_1_010000_111110, .vfsetof 24 29),
    (0b011111_000000_010010_0_1_010001_111110, .vfsetbf 18 31),
    (0b011111_000000_010100_0_1_010010_111110, .vfsetif 20 31),
    (0b000000_0_01000_010010_0_1_011010_111110, .vfinsVS 18 8),
    (0b000100_0_01011_001011_0_1_011100_111110, .vfandVS 11 4 11),
    (0b001001_0_01010_011010_0_1_011101_111110, .vfnorVS 26 9 10),
    (0b010010_0_11010_001001_0_1_011110_111110, .vforVS 9 18 26),
    (0b011000_0_01011_001011_0_1_011111_111110, .vfxorVS 11 24 11),
    (0b000000_0_00100_101001_0_1_101000_111110, .vmstc 41 4),
    (0b000011_000000_0_00011_0_1_101001_111110, .vmcts 3 3)] = true := by decide

theorem test_decode_memory_1 : decodeAll [
    (0b100_00000_0111_010001_0_0_000000_111111, .vldB .vfmask0 17 7 4),
    (0b011_00000_0000_101101_0_0_000001_111111, .vstB .vfmask0 45 0 3),
    (0b011_011_00_1001_010110_0_0_000010_111111, .vldsB .vfmask0 22 9 3 3),
    (0b001_000_00_1010_000000_0_0_000011_111111, .vstsB .vfmask0 0 10 0 1),
    (0b101100_00_1101_001010_1_0_000100_111111, .vldxB .vfmask1 10 44 13),
    (0b100010_00_1100_000000_0_0_000101_111111, .vstxuB .vfmask0 0 34 12),
    (0b011000_00_0011_110111_1_0_000110_111111, .vstxB .vfmask1 55 24 3),
    (0b110_00000_1000_001101_0_0_001000_111111, .vlduB .vfmask0 13 8 6),
    (0b001_000_00_1111_011100_0_0_001010_111111, .vldsuB .vfmask0 28 15 0 1),
    (0b011110_00_0001_101001_1_0_001100_111111, .vldxuB .vfmask1 41 30 1),
    (0b101_00000_1100_010001_1_0_010000_111111, .vldH .vfmask1 17 12 5),
    (0b010_00000_1110_010100_0_0_010001_111111, .vstH .vfmask0 20 14 2),
    (0b110_100_00_0000_011110_0_0_010010_111111, .vldsH .vfmask0 30 0 4 6),
    (0b110_011_00_0110_011101_1_0_010011_111111, .vstsH .vfmask1 29 6 3 6),
    (0b000110_00_1100_111110_0_0_010100_111111, .vldxH .vfmask0 62 6 12),
    (0b010100_00_1001_011110_1_0_010101_111111, .vstxuH .vfmask1 30 20 9),
    (0b010110_00_1001_110010_1_0_010110_111111, .vstxH .vfmask1 50 22 9),
    (0b111_00000_1011_001000_1_0_011000_111111, .vlduH .vfmask1 8 11 7),
    (0b011_000_00_1101_101010_1_0_011010_111111, .vldsuH .vfmask1 42 13 0 3),
    (0b000000_00_0011_111010_1_0_011100_111111, .vldxuH .vfmask1 58 0 3),
    (0b110_00000_0011_101011_1_0_100000_111111, .vldW .vfmask1 43 3 6),
    (0b001_00000_0101_011111_0_0_100001_111111, .vstW .vfmask0 31 5 1),
    (0b001_111_00_0001_110000_1_0_100010_111111, .vldsW .vfmask1 48 1 7 1),
    (0b100_100_00_1110_110100_1_0_100011_111111, .vstsW .vfmask1 52 14 4 4),
    (0b101111_00_1111_000000_1_0_100100_111111, .vldxW .vfmask1 0 47 15)] = true := by decide

theorem test_decode_memory_2 : decodeAll [
    (0b101000_00_1111_111010_0_0_100101_111111, .vstxuW .vfmask0 58 40 15),
    (0b011001_00_1001_011000_1_0_100110_111111, .vstxW .vfmask1 24 25 9),
    (0b001111_000000_010101_1_0_110000_111111, .vldlVV .vfmask1 21 15),
    (0b011011_101111_000000_1_0_110001_111111, .vstlVV .vfmask1 27 47),
    (0b011_00000_1011_010101_0_0_110010_111111, .vfld 21 11 3),
    (0b010_00000_1000_000000_0_0_110011_111111, .vfst 0 8 2)] = true := by decide

theorem test_decode_memory_scalar : decodeAll [
    (0b100100_0_00100_000000_1_1_110001_111111, .vstlVS .vfmask1 36 4)] = true := by decide

/-- The words of 95_test_vectors.md section 3.1 that differ in shape. -/
theorem test_decode_vectors_1 : decodeAll [
    (0x0420C03D, .vaddVV .vfmask0 3 1 2), (0x0420E03D, .vaddVV .vfmask1 3 1 2),
    (0x0450D03D, .vaddVS .vfmask0 3 1 5), (0xF9FFDC7D, .vsubSV .vfmask0 63 31 62),
    (0x24010D7D, .vabsVV .vfmask0 4 9), (0x0420457D, .vcmpltVV .vfmask0 1 1 2),
    (0x08943F7D, .vcmpltuSV .vfmask1 16 9 2), (0x04005DFD, .vcmpleSV .vfmask0 1 0 1),
    (0x042000FD, .vmacVV .vfmask0 1 2), (0x1C3032FD, .vmacuVS .vfmask1 7 3), (0x00014C3D, .vccacc 5),
    (0x00014E3D, .vcczacc 5), (0x0440953D, .vrotVS .vfmask0 2 1 4), (0x04409CBD, .vsllSV .vfmask0 2 4 1),
    (0x0000C1BD, .vorVV .vfmask0 3 0 0), (0x1001D8BD, .vextVS 7 4), (0x1001DABD, .vextuVS 7 4),
    (0x007118FD, .vinsVS 4 7), (0x140108FD, .vinsVV 4 5), (0x14010C7D, .vupshift 4 5),
    (0x0420E63D, .vmergeVV .vfmask1 3 1 2), (0x0800ECBD, .vcomp .vfmask1 3 2),
    (0x0000403F, .vldB .vfmask0 1 0 0), (0xE0F0483F, .vldW .vfmask0 1 15 7),
    (0x2C2264BF, .vldsH .vfmask1 9 2 3 1), (0x2C2248FF, .vstsW .vfmask0 9 2 3 1),
    (0x0410853F, .vldxH .vfmask0 2 1 1), (0x0410A97F, .vstxuW .vfmask1 2 1 1)] = true := by decide

theorem test_decode_vectors_2 : decodeAll [
    (0x04008C3F, .vldlVV .vfmask0 2 1), (0x04601C7F, .vstlVS .vfmask0 1 6),
    (0x04200C7F, .vstlVV .vfmask0 1 2), (0x00308CBF, .vfld 2 3 0), (0x00308CFF, .vfst 2 3 0),
    (0x0010913E, .vfandVV 2 0 1), (0x043097BE, .vforVS 2 1 3), (0x09F0D1FE, .vfxorVV 3 2 31),
    (0x0410917E, .vfnorVV 2 1 1), (0x0000103E, .vfclr 0), (0x0000507E, .vfset 1),
    (0x003096BE, .vfinsVS 2 3), (0x0800D47E, .vfsetbf 3 2), (0x0800D4BE, .vfsetif 3 2),
    (0x0800D43E, .vfsetof 3 2), (0x0801923E, .vfff1 6 2), (0x0801D27E, .vffl1 7 2),
    (0x00101A3E, .vmstc 0 1), (0x0090DA3E, .vmstc 3 9), (0x0099DA3E, .vmstc 39 9),
    (0x78021A7E, .vmcts 8 30), (0xFC021A7E, .vmcts 8 63), (0x0420C03E, .vsaddVV .vfmask0 3 1 2),
    (0x0450C83E, .vsaddVS .vfmask0 3 1 5), (0x0850CC7E, .vssubSV .vfmask0 3 5 2),
    (0x0400C13E, .vsrr .vfmask0 3 1), (0x0400C0FE, .vsat .b .vfmask0 3 1),
    (0x0000C43E, .vxccacc 3)] = true := by decide

/-- 95_test_vectors.md 3-60: another opcode is the scalar core's. -/
theorem test_scalar_word : decodeWord Config.tc1 0x0000003C = .scalar := by decide

/-- 95_test_vectors.md 3-61 to 3-65. -/
theorem test_reserved_words : [(0x0000093D : Word), 0x0000107F, 0x000068FD, 0x0650D03D, 0x0008103E].all
    (fun w => decodeWord Config.tc1 w == .reserved) = true := by decide

/-- The host's numbering: the word itself; the bytes lie little-endian (R10, G4). -/
theorem test_table_word : decodeTableWord 32 0x0420C03D = some (.vaddVV .vfmask0 3 1 2) ∧
    decodeBytes Config.tc1 [0x3D, 0xC0, 0x20, 0x04] = .instr (.vaddVV .vfmask0 3 1 2) := by decide

/-! ### Steps of the machine -/

/-- 95_test_vectors.md 3-61, 3-66 to 3-70: what a step at these words is refused for in TC1. -/
theorem test_refused_words : [(0x0000093D, Refusal.reservedEncoding),
    (0x0004903E, .reservedFlagRegister), (0x00111A3E, .reservedControlRegister),
    (0x00179A3E, .staticControlRegister), (0x0000483F, .widthNotAvailable),
    (0x0000203E, .fixedPointNotImplemented)].all
    (fun p => refuses p.2 (step (State.reset.withFetchWord 32 p.1))) = true := by decide

/-- A step at a placed word runs it; `vmstc VL, r1` copies `r1` (R280). -/
theorem test_step_runs_word :
    control 0 (step ((scalars 9 State.reset).withFetchWord 32 0x00101A3E)) = some 9 := by decide

/-- From reset with nothing placed the run is over at once: the empty program (R324). -/
theorem test_reset_has_no_program : refuses .runEnded (step State.reset) = true := by decide

theorem test_pc_outside_program :
    refuses .pcOutsideProgram (step { State.reset with pc := 0x2000 }) = true := by decide

theorem test_scalar_word_steps : runs (step (State.reset.withFetchWord 32 0x0000003C)) = true := by
  decide

/-! ### Integer instructions (95_test_vectors.md section 4.1) -/

/-- Element 0 of `vr1` and of `vr2`, and every scalar register. -/
def pair (c : Config) (a b : Elem) (x : Word) : State := scalars x (start c 4 [[a], [b]])

/-- Element 0 of `vr3` after each instruction on its operands. -/
def results (c : Config) (x : Word) (l : List (Instr × Elem × Elem × Elem)) : Bool :=
  l.all fun p => elems 3 1 (exec p.1 (pair c p.2.1 p.2.2.1 x)) == some [p.2.2.2]

/-- Bit 0 of `$vf3` after each compare. -/
def compared (x : Word) (l : List (Instr × Elem × Elem × Bool)) : Bool :=
  l.all fun p => bits 3 1 (exec p.1 (pair Config.tc1 p.2.1 p.2.2.1 x)) == some [p.2.2.2]

theorem test_sums : results Config.tc1 0x00010005 [
    (.vaddVV .vfmask0 3 1 2, 0x7FFF, 0x0001, 0x8000), (.vaddVV .vfmask0 3 1 2, 0x0003, 0xFFFF, 0x0002),
    (.vadduVV .vfmask0 3 1 2, 0xFFFF, 0x0002, 0x0001), (.vaddVS .vfmask0 3 1 5, 0x0001, 0, 0x0006),
    (.vadduVS .vfmask0 3 1 5, 0xFFFE, 0, 0x0003)] = true := by decide

theorem test_differences : results Config.tc1 10 [
    (.vsubVV .vfmask0 3 1 2, 0x8000, 0x0001, 0x7FFF), (.vsubVS .vfmask0 3 1 5, 0x0003, 0, 0xFFF9),
    (.vsubSV .vfmask0 3 5 2, 0, 0x0003, 0x0007), (.vsubuVV .vfmask0 3 1 2, 0x0000, 0x0001, 0xFFFF),
    (.vsubuVS .vfmask0 3 1 5, 0x0003, 0, 0xFFF9), (.vsubuSV .vfmask0 3 5 2, 0, 0x000B, 0xFFFF)] = true := by
  decide

theorem test_products : results Config.tc1 0xABCDFFFF [
    (.vmulhiVV .vfmask0 3 1 2, 0x8000, 0x8000, 0x4000), (.vmulhiVV .vfmask0 3 1 2, 0xFFFF, 0x0002, 0xFFFF),
    (.vmulhiuVV .vfmask0 3 1 2, 0xFFFF, 0xFFFF, 0xFFFE), (.vmulhiuVV .vfmask0 3 1 2, 0xFFFF, 0x0002, 0x0001),
    (.vmulloVV .vfmask0 3 1 2, 0xFFFF, 0xFFFF, 0x0001), (.vmullouVV .vfmask0 3 1 2, 0x1234, 0x0010, 0x2340),
    (.vmulhiVS .vfmask0 3 1 5, 0xFFFF, 0, 0x0000), (.vmulhiuVS .vfmask0 3 1 5, 0xFFFF, 0, 0xFFFE),
    (.vmulloVS .vfmask0 3 1 5, 0x8000, 0, 0x8000), (.vmullouVS .vfmask0 3 1 5, 0x0002, 0, 0xFFFE)] = true := by
  decide

theorem test_quotients : results Config.tc1 100 [
    (.vdivVV .vfmask0 3 1 2, 0xFFF9, 0x0002, 0xFFFD), (.vdivVV .vfmask0 3 1 2, 0x7FFF, 0xFFFF, 0x8001),
    (.vdivuVV .vfmask0 3 1 2, 0xFFF9, 0x0002, 0x7FFC), (.vdivuVV .vfmask0 3 1 2, 0x8000, 0xFFFF, 0x0000),
    (.vdivSV .vfmask0 3 5 2, 0, 0x0007, 0x000E), (.vdivVS .vfmask0 3 1 5, 0xFF38, 0, 0xFFFE),
    (.vdivuVS .vfmask0 3 1 5, 0xFF38, 0, 0x028D), (.vdivuSV .vfmask0 3 5 2, 0, 0xFFFF, 0x0000)] = true := by
  decide

/-- A division by 0 and the overflowing one complete (4.1-23, 4.1-24, 4.1-27). -/
theorem test_division_never_stops :
    [(Instr.vdivVV .vfmask0 3 1 2, (5 : Elem), (0 : Elem)), (.vdivVV .vfmask0 3 1 2, 0x8000, 0xFFFF),
      (.vdivuVV .vfmask0 3 1 2, 5, 0)].all
      (fun p => runs (exec p.1 (pair Config.tc1 p.2.1 p.2.2 0))) = true := by decide

theorem test_shifts_right : results Config.tc1 4 [
    (.vsraVV .vfmask0 3 1 2, 0x0004, 0xFF00, 0xFFF0), (.vsraVV .vfmask0 3 1 2, 0x000F, 0x8000, 0xFFFF),
    (.vsraSV .vfmask0 3 5 2, 0, 0xFF00, 0xFFF0), (.vsraVS .vfmask0 3 1 5, 0x0001, 0, 0x0002),
    (.vsrlVV .vfmask0 3 1 2, 0x0004, 0xFF00, 0x0FF0), (.vsrlVV .vfmask0 3 1 2, 0x000F, 0x8000, 0x0001),
    (.vsrlSV .vfmask0 3 5 2, 0, 0xFF00, 0x0FF0), (.vsrlVS .vfmask0 3 1 5, 0x0002, 0, 0x0001)] = true := by
  decide

theorem test_shifts_left_and_rotations : results Config.tc1 4 [
    (.vsllVV .vfmask0 3 1 2, 0x0004, 0x0FF1, 0xFF10), (.vsllSV .vfmask0 3 5 2, 0, 0x0FF1, 0xFF10),
    (.vsllVS .vfmask0 3 1 5, 0x0003, 0, 0x0020), (.vrotVV .vfmask0 3 1 2, 0x1234, 0x0004, 0x4123),
    (.vrotVV .vfmask0 3 1 2, 0x1234, 0x0014, 0x4123), (.vrotVS .vfmask0 3 1 5, 0x8001, 0, 0x1800),
    (.vrotSV .vfmask0 3 5 2, 0, 0x0003, 0x8000)] = true := by decide

theorem test_minima_and_maxima : results Config.tc1 0x5555FFFF [
    (.vminVV .vfmask0 3 1 2, 0xFFFF, 0x0001, 0xFFFF), (.vminuVV .vfmask0 3 1 2, 0xFFFF, 0x0001, 0x0001),
    (.vmaxVV .vfmask0 3 1 2, 0xFFFF, 0x0001, 0x0001), (.vmaxuVV .vfmask0 3 1 2, 0xFFFF, 0x0001, 0xFFFF),
    (.vminVS .vfmask0 3 1 5, 0x0001, 0, 0xFFFF), (.vminuVS .vfmask0 3 1 5, 0x0001, 0, 0x0001),
    (.vmaxVS .vfmask0 3 1 5, 0x8000, 0, 0xFFFF), (.vmaxuVS .vfmask0 3 1 5, 0x8000, 0, 0xFFFF)] = true := by
  decide

theorem test_absolute_values : results Config.tc1 0x00010009 [
    (.vabsVV .vfmask0 3 1, 0xFFFD, 0, 0x0003), (.vabsdiffVV .vfmask0 3 1 2, 0x8000, 0x7FFF, 0xFFFF),
    (.vabsdiffVV .vfmask0 3 1 2, 0xFFFF, 0x0001, 0x0002), (.vabsdiffVS .vfmask0 3 1 5, 0x0005, 0, 0x0004)]
    = true := by decide

/-- The unsigned reading of 4.1-45, with `AbsDiffSigned` false. -/
theorem test_absolute_difference_unsigned : results { Config.tc1 with absDiffSigned := false } 0 [
    (.vabsdiffVV .vfmask0 3 1 2, 0xFFFF, 0x0001, 0xFFFE)] = true := by decide

theorem test_bitwise : results Config.tc1 0xFFFF00FF [
    (.vandVV .vfmask0 3 1 2, 0x0FF0, 0x00FF, 0x00F0), (.vorVV .vfmask0 3 1 2, 0x0FF0, 0x00FF, 0x0FFF),
    (.vxorVV .vfmask0 3 1 2, 0x0FF0, 0x00FF, 0x0F0F), (.vandVS .vfmask0 3 1 5, 0x1234, 0, 0x0034),
    (.vorVS .vfmask0 3 1 5, 0x1234, 0, 0x12FF), (.vxorVS .vfmask0 3 1 5, 0x1234, 0, 0x12CB)] = true := by
  decide

theorem test_compares_equal : compared 0xABCD0005 [
    (.vcmpeqVV .vfmask0 3 1 2, 5, 5, true), (.vcmpeqVS .vfmask0 3 1 5, 5, 0, true),
    (.vcmpneqVV .vfmask0 3 1 2, 5, 5, false), (.vcmpneqVS .vfmask0 3 1 5, 4, 0, true)] = true := by decide

theorem test_compares_less : compared 0 [
    (.vcmpltVV .vfmask0 3 1 2, 0xFFFF, 1, true), (.vcmpltVV .vfmask0 3 1 2, 1, 1, false),
    (.vcmpltuVV .vfmask0 3 1 2, 0xFFFF, 1, false), (.vcmpltSV .vfmask0 3 5 2, 0, 0xFFFE, false),
    (.vcmpltVS .vfmask0 3 1 5, 0xFFFD, 0, true), (.vcmpltuVS .vfmask0 3 1 5, 0xFFFD, 0, false),
    (.vcmpltuSV .vfmask0 3 5 2, 0, 0xFFFE, true)] = true := by decide

theorem test_compares_less_or_equal : compared 0 [
    (.vcmpleVV .vfmask0 3 1 2, 1, 1, true), (.vcmpleVV .vfmask0 3 1 2, 0x7FFF, 0x8000, false),
    (.vcmpleuVV .vfmask0 3 1 2, 0x7FFF, 0x8000, true), (.vcmpleVS .vfmask0 3 1 5, 0x8000, 0, true),
    (.vcmpleSV .vfmask0 3 5 2, 0, 0x8000, false), (.vcmpleuVS .vfmask0 3 1 5, 0x8000, 0, false),
    (.vcmpleuSV .vfmask0 3 5 2, 0, 0x8000, true)] = true := by decide

/-- 4.1-70, 4.1-71, 4.1-73: `VL`, the mask and `vr0`. -/
theorem test_add_masked :
    let s := start Config.tc1 4 [[1, 2, 3, 4], [10, 20, 30, 40], List.replicate 16 0xAAAA]
    elems 3 4 (exec (.vaddVV .vfmask0 3 1 2) { s with vl := 3 }) = some [0x000B, 0x0016, 0x0021, 0xAAAA] ∧
    elems 3 4 (exec (.vaddVV .vfmask1 3 1 2) (flags [[], [false, true, false, true]] s)) =
      some [0x000B, 0xAAAA, 0x0021, 0xAAAA] ∧
    elems 0 4 (exec (.vaddVV .vfmask0 0 1 2) s) = some [0, 0, 0, 0] := by decide

/-- 4.1-74, 4.1-75, 4.1-76: a compare into its own mask, and into `vfzero`. -/
theorem test_compare_masked :
    let s := start Config.tc1 4 [[5, 0xFFFD, 0, 0x8000]]
    bits 1 4 (exec (.vcmpltVS .vfmask1 1 1 0) (flags [[], [true, true, true, true]] s)) =
      some [true, true, true, true] ∧
    bits 0 4 (exec (.vcmpltVS .vfmask0 0 1 0) s) = some [false, true, false, true] ∧
    bits 30 4 (exec (.vcmpeqVV .vfmask0 30 1 1) s) = some [false, false, false, false] := by decide

/-! ### Multiply-accumulate (section 4.2) -/

theorem test_vmac : let s := start Config.tc1 4 [[1, 2, 3, 4], [5, 6, 7, 8]]
    accumulated (exec (.vmacVV .vfmask0 1 2) s) = some [70] ∧
    accumulated (exec (.vmacVV .vfmask0 1 2) (start Config.tc1 1 [[0xFFFF], [2]])) =
      some [0xFFFFFFFFFE] := by decide

theorem test_vmac_masked : accumulated (exec (.vmacVV .vfmask0 1 1) (flags [[false, false, true, false]]
    (start Config.tc1 4 [List.replicate 4 0x8000]))) = some [0x00C0000000] := by decide

theorem test_vmacu : accumulated (exec (.vmacuVV .vfmask0 1 2) (start Config.tc1 1 [[0xFFFF], [2]])) =
    some [0x1FFFE] ∧
    accumulated (exec (.vmacuVS .vfmask0 1 5) (scalars 0x10002 (start Config.tc1 1 [[0xFFFF]]))) =
      some [0x1FFFE] := by decide

/-- 4.2-8: VP `i` feeds accumulator `i mod 4` in TC2. -/
theorem test_vmac_map : accumulated (exec (.vmacVS .vfmask0 1 4) (scalars 3
    (start Config.tc2 8 [List.replicate 8 1]))) = some [6, 6, 6, 6] := by decide

/-- 4.2-5 and 4.2-7: one accumulator, and two chains of two. -/
theorem test_vccacc :
    let r := exec (.vccacc 5) (accs [0x10005] (start Config.tc1 9 []))
    let q := exec (.vccacc 5) (accs [10, 20, 30, 0x10005] (start Config.tc2 9 []))
    elems 5 1 r = some [5] ∧ control 0 r = some 1 ∧ accumulated r = some [0x10005] ∧
    elems 5 2 q = some [0x001E, 0x0023] ∧ control 0 q = some 2 := by decide

/-- 4.2-6; 4.2-9: a first clearing meets no fault. -/
theorem test_vcczacc :
    let r := exec (.vcczacc 5) (accs [0x10005] (start Config.tc1 9 []))
    let q := exec (.vcczacc 0) (start Config.tc1 9 [])
    elems 5 1 r = some [5] ∧ control 0 r = some 1 ∧ accumulated r = some [0] ∧
    control 0 q = some 1 ∧ accumulated q = some [0] := by decide

/-- 4.2-11. -/
theorem test_no_mac : refuses .featureOff
    (exec (.vmacVV .vfmask0 1 2) (start { Config.tc1 with macl := 0 } 4 [])) = true := by decide

/-! ### Fixed-point instructions (section 4.4, TC1F) -/

/-- `results` with a fixed-point shift amount. -/
def shifted (n : Word) (l : List (Instr × Elem × Elem × Elem)) : Bool :=
  l.all fun p => elems 3 1 (exec p.1 { pair Config.tc1f p.2.1 p.2.2.1 5 with vshamt := n }) ==
    some [p.2.2.2]

theorem test_saturate : shifted 0 [
    (.vsat .b .vfmask0 3 1, 0x0123, 0, 0x007F), (.vsat .b .vfmask0 3 1, 0xFF00, 0, 0xFF80),
    (.vsatu .b .vfmask0 3 1, 0x0123, 0, 0x00FF), (.vsatu .b .vfmask0 3 1, 0x0080, 0, 0x0080),
    (.vsatsu .b .vfmask0 3 1, 0xFFFB, 0, 0x0000), (.vsatsu .b .vfmask0 3 1, 0x0123, 0, 0x00FF)] = true := by
  decide

theorem test_saturating_sums : shifted 0 [
    (.vsaddVV .vfmask0 3 1 2, 0x7FFF, 0x0001, 0x7FFF), (.vsaddVV .vfmask0 3 1 2, 0x8000, 0xFFFF, 0x8000),
    (.vsadduVV .vfmask0 3 1 2, 0xFFFF, 0x0002, 0xFFFF), (.vssubVV .vfmask0 3 1 2, 0x8000, 0x0001, 0x8000),
    (.vssubuVV .vfmask0 3 1 2, 0x0003, 0x0005, 0x0000), (.vsaddVS .vfmask0 3 1 5, 0x7FFE, 0, 0x7FFF),
    (.vsadduVS .vfmask0 3 1 5, 0x7FFE, 0, 0x8003), (.vssubVS .vfmask0 3 1 5, 0x8001, 0, 0x8000),
    (.vssubuVS .vfmask0 3 1 5, 0x0003, 0, 0x0000), (.vssubSV .vfmask0 3 5 2, 0, 0x8001, 0x7FFF),
    (.vssubuSV .vfmask0 3 5 2, 0, 0x0006, 0x0000)] = true := by decide

theorem test_rounding_shifts : shifted 2 [
    (.vsrr .vfmask0 3 1, 0x0006, 0, 0x0002), (.vsrr .vfmask0 3 1, 0xFFF9, 0, 0xFFFE),
    (.vsrru .vfmask0 3 1, 0xFFFD, 0, 0x3FFF)] = true := by decide

theorem test_saturating_shifts : shifted 4 [
    (.vsls .vfmask0 3 1, 0x1000, 0, 0x7FFF), (.vsls .vfmask0 3 1, 0xF000, 0, 0x8000),
    (.vslsu .vfmask0 3 1, 0x1000, 0, 0xFFFF), (.vslsu .vfmask0 3 1, 0x0FFF, 0, 0xFFF0)] = true := by decide

theorem test_fixed_point_products : shifted 1 [
    (.vxmulhiVV .vfmask0 3 1 2, 0x4000, 0x4000, 0x0800), (.vxmulloVV .vfmask0 3 1 2, 3, 3, 5),
    (.vxmulhiVS .vfmask0 3 1 5, 0x8000, 0, 0xFFFE), (.vxmulloVS .vfmask0 3 1 5, 3, 0, 8),
    (.vxmulhiuVV .vfmask0 3 1 2, 0xFFFF, 0xFFFF, 0x7FFF), (.vxmulhiuVS .vfmask0 3 1 5, 0xFFFF, 0, 2),
    (.vxmullouVS .vfmask0 3 1 5, 2, 0, 5)] = true := by decide

theorem test_fixed_point_products_unshifted : shifted 0 [
    (.vxmulhiVV .vfmask0 3 1 2, 0x8000, 0x8000, 0x4000), (.vxmullouVV .vfmask0 3 1 2, 0xFFFF, 0xFFFF, 1)]
    = true := by decide

/-- 4.4-30, 4.4-31, 4.4-32. -/
theorem test_copy_and_saturate :
    let r := exec (.vxccacc 3) (accs [0x10005] (start Config.tc1f 9 []))
    let q := exec (.vxcczacc 3) (accs [0x1234] (start Config.tc1f 9 []))
    elems 3 1 r = some [0x7FFF] ∧ control 0 r = some 1 ∧ accumulated r = some [0x10005] ∧
    elems 3 1 (exec (.vxccacc 3) (accs [0xFFFFFF0000] (start Config.tc1f 9 []))) = some [0x8000] ∧
    elems 3 1 q = some [0x1234] ∧ control 0 q = some 1 ∧ accumulated q = some [0] := by decide

/-! ### Memory (section 4.5) -/

/-- The common start of 4.5-1 to 4.5-12. -/
def memStart (vl : Nat) (base stride inc : Word) (v : List (List Elem)) : State :=
  memRegs base stride inc (bytes 0x2000 [0x80, 0x7F, 0xFF, 0x00, 0x34, 0x12, 0xCD, 0xAB]
    (start Config.tc1 vl v))

/-- The same in an instance of 32-bit VPs, which has the word forms. -/
def wide (s : State) : State := { s with cfg := { Config.tc1 with vpuw := .w } }

theorem test_unit_loads :
    let r := exec (.vldB .vfmask0 1 0 0) (memStart 4 0x2000 0 4 [])
    let q := exec (.vlduB .vfmask0 1 0 0) (memStart 4 0x2000 0 0xFFFFFFFC [])
    elems 1 5 r = some [0xFF80, 0x007F, 0xFFFF, 0x0000, 0] ∧ control 48 r = some 0x2004 ∧
    elems 1 4 q = some [0x0080, 0x007F, 0x00FF, 0x0000] ∧ control 48 q = some 0x1FFC := by decide

theorem test_unit_load_halfwords :
    let s := flags [[], [false, true, false, true]] (memStart 4 0x2000 0 0 [List.replicate 16 0xAAAA])
    elems 1 4 (exec (.vldH .vfmask0 1 0 0) s) = some [0x7F80, 0x00FF, 0x1234, 0xABCD] ∧
    elems 1 4 (exec (.vldH .vfmask1 1 0 0) s) = some [0x7F80, 0xAAAA, 0x1234, 0xAAAA] ∧
    elems 1 4 (exec (.vlduH .vfmask0 1 0 0) (wide s)) = some [0x7F80, 0x00FF, 0x1234, 0xABCD] := by decide

theorem test_load_words : let s := wide (memStart 2 0x2000 1 0 [[4, 0]])
    elems 2 2 (exec (.vldW .vfmask0 2 0 0) s) = some [0x00FF7F80, 0xABCD1234] ∧
    elems 2 2 (exec (.vldsW .vfmask0 2 0 0 0) s) = some [0x00FF7F80, 0xABCD1234] ∧
    elems 2 2 (exec (.vldxW .vfmask0 2 1 0) s) = some [0xABCD1234, 0x00FF7F80] := by decide

theorem test_word_refused : refuses .widthNotAvailable
    (exec (.vldW .vfmask0 1 0 0) (memStart 4 0x2000 0 0 [])) = true := by decide

theorem test_stride_loads : let s := memStart 4 0x2006 0xFFFFFFFF 0 []
    elems 1 4 (exec (.vldsH .vfmask0 1 0 0 0) s) = some [0xABCD, 0x1234, 0x00FF, 0x7F80] ∧
    elems 1 4 (exec (.vldsuH .vfmask0 1 0 0 0) (memStart 4 0x2004 0 0 [])) =
      some [0x1234, 0x1234, 0x1234, 0x1234] ∧
    elems 1 3 (exec (.vldsB .vfmask0 1 0 0 0) (memStart 3 0x2000 2 0 [])) = some [0xFF80, 0xFFFF, 0x0034] ∧
    elems 1 3 (exec (.vldsuB .vfmask0 1 0 0 0) (memStart 3 0x2000 2 0 [])) = some [0x0080, 0x00FF, 0x0034] :=
  by decide

theorem test_indexed_loads : let s := memStart 3 0x2004 0 7 [[0xFFFC, 0x0002, 0x0000]]
    let r := exec (.vldxH .vfmask0 2 1 1) s
    elems 2 3 r = some [0x7F80, 0xABCD, 0x1234] ∧ control 49 r = some 0x2004 ∧
    elems 2 2 (exec (.vldxuH .vfmask0 2 1 1) (wide (memStart 2 0x2006 0 0 [[0, 0xFFFFFFFE]]))) =
      some [0xABCD, 0x1234] ∧
    elems 2 3 (exec (.vldxB .vfmask0 2 1 1) s) = some [0xFF80, 0xFFCD, 0x0034] ∧
    elems 2 3 (exec (.vldxuB .vfmask0 2 1 1) s) = some [0x0080, 0x00CD, 0x0034] := by decide

/-- 4.5-9, 4.5-10: the offset of a masked VP is not checked. -/
theorem test_indexed_load_masked :
    let s := flags [[], [false, true, false]]
      (memStart 3 0x2004 0 0 [[0xFFFC, 0x0001, 0x0000], List.replicate 16 0xAAAA])
    faults (.misaligned 0x2005 2) (exec (.vldxH .vfmask0 2 1 1) s) = true ∧
    elems 2 3 (exec (.vldxH .vfmask1 2 1 1) s) = some [0x7F80, 0xAAAA, 0x1234] := by decide

/-- 4.5-11, 4.5-12, 4.5-20. -/
theorem test_access_faults :
    faults (.addrRange (-1)) (exec (.vldxB .vfmask0 2 1 1) (memStart 2 0 0 0 [[0xFFFF, 0]])) = true ∧
    faults (.memUnmapped 0x10000) (exec (.vldxH .vfmask0 2 1 1) (memStart 2 0xFFFE 0 0 [[0, 2]])) = true ∧
    faults (.misaligned 0x2001 2) (exec (.vstH .vfmask0 1 0 0) (memStart 0 0x2001 0 0 [])) = true := by
  decide

/-- The start of the stores, 4.5-13 to 4.5-20. -/
def storeStart (vl : Nat) (base stride : Word) : State :=
  memRegs base stride 0 (start Config.tc1 vl [[0x1111, 0x2222, 0x3333, 0x4444], [2, 2, 0]])

theorem test_unit_stores :
    memory 0x2000 3 (exec (.vstB .vfmask0 1 1 0)
      (memRegs 0x2000 0 0 (start Config.tc1 2 [[0x1234, 0x00FF]]))) = some [0x34, 0xFF, 0] ∧
    memory 0x2000 4 (exec (.vstH .vfmask0 1 1 0) (storeStart 2 0x2000 0)) = some [0x11, 0x11, 0x22, 0x22] ∧
    memory 0x2000 5 (exec (.vstW .vfmask0 1 1 0) (wide (storeStart 1 0x2000 0))) =
      some [0x11, 0x11, 0, 0, 0] := by decide

theorem test_stride_stores :
    memory 0x2000 8 (exec (.vstsB .vfmask0 1 0 0 0) (storeStart 4 0x2000 2)) =
      some [0x11, 0, 0x22, 0, 0x33, 0, 0x44, 0] ∧
    memory 0x2000 4 (exec (.vstsH .vfmask0 1 0 0 0) (storeStart 4 0x2000 0)) = some [0x44, 0x44, 0, 0] ∧
    memory 0x2000 4 (exec (.vstsH .vfmask1 1 0 0 0) (flags [[], [false, false, false, true]]
      (storeStart 4 0x2000 0))) = some [0x33, 0x33, 0, 0] ∧
    memory 0x2000 9 (exec (.vstsW .vfmask0 1 0 0 0) (wide (storeStart 2 0x2000 2))) =
      some [0x11, 0x11, 0, 0, 0, 0, 0, 0, 0x22] := by decide

/-- 4.5-17 and the halfword and word forms. -/
theorem test_indexed_stores :
    memory 0x2000 4 (exec (.vstxB .vfmask0 2 1 1) (memRegs 0x2000 0 0
      (start Config.tc1 3 [[2, 2, 0], [0x11AA, 0x22BB, 0x33CC]]))) = some [0xCC, 0, 0xBB, 0] ∧
    memory 0x2000 4 (exec (.vstxH .vfmask0 1 2 1) (storeStart 3 0x2000 0)) = some [0x33, 0x33, 0x22, 0x22] ∧
    memory 0x2000 4 (exec (.vstxW .vfmask0 1 3 1) (wide (storeStart 1 0x2000 0))) =
      some [0x11, 0x11, 0, 0] := by decide

/-- 4.5-18 where it does not depend on the order: VPs at addresses of their own. -/
theorem test_unordered_stores :
    let s := memRegs 0x2000 0 0 (start Config.tc1 2 [[4, 0], [0x11AA, 0x22BB]])
    memory 0x2000 5 (exec (.vstxuB .vfmask0 2 1 1) s) = some [0xBB, 0, 0, 0, 0xAA] ∧
    memory 0x2000 6 (exec (.vstxuH .vfmask0 2 1 1) s) = some [0xBB, 0x22, 0, 0, 0xAA, 0x11] ∧
    memory 0x2000 6 (exec (.vstxuW .vfmask0 2 1 1) (wide s)) = some [0xBB, 0x22, 0, 0, 0xAA, 0x11] := by
  decide

/-- 4.5-19. -/
theorem test_store_to_code : refuses .storeToCode (exec (.vstH .vfmask0 1 0 0)
    { storeStart 2 0x1004 0 with program := List.replicate 8 0 }) = true := by decide

/-- The order of R211 step 1 before step 2: a misaligned base inside the program text. -/
theorem test_store_to_code_first :
    let s : State := { storeStart 2 0x1005 0 with program := List.replicate 8 0 }
    refuses .storeToCode (exec (.vstH .vfmask0 1 0 0) s) = true ∧
    refuses .storeToCode (exec (.vfst 2 0 0) s) = true := by decide

/-- The start of the local memory vectors. -/
def localStart (c : Config) (vl : Nat) (a : List Elem) : State :=
  scalars 0x0001BEEF (start c vl [a, [0xA0, 0xA1, 0xA2, 0xA3], List.replicate 16 0xAAAA])

/-- A state with what 4.5-21 has stored. -/
def localStored (a : List Elem) : State :=
  { localStart Config.tc1 4 a with
    lmem := [(0, 0xA0), (2 ^ 32 + 1, 0xA1), (2 * 2 ^ 32 + 15, 0xA2), (3 * 2 ^ 32 + 3, 0xA3)] }

/-- 4.5-21, 4.5-22c. -/
theorem test_local_stores :
    localWordsAt [0, 1, 15, 3] (exec (.vstlVV .vfmask0 1 2) (localStart Config.tc1 4 [0, 1, 15, 3])) =
      some [some 0xA0, some 0xA1, some 0xA2, some 0xA3] ∧
    localWordsAt [5, 5, 5, 5, 5] (exec (.vstlVS .vfmask0 1 6)
      (localStart Config.tc2 4 (List.replicate 16 5))) =
      some [some 0xBEEF, some 0xBEEF, some 0xBEEF, some 0xBEEF, some 0xBEEF] := by decide

/-- 4.5-22. -/
theorem test_local_load : elems 3 5 (exec (.vldlVV .vfmask0 3 1) (localStored [0, 1, 15, 3])) =
    some [0xA0, 0xA1, 0xA2, 0xA3, 0xAAAA] := by decide

/-- 4.5-22a, 4.5-22b, 4.5-23. -/
theorem test_local_stops :
    faults (.localMemRange 2 16) (exec (.vldlVV .vfmask0 3 1) (localStored [0, 1, 16, 3])) = true ∧
    faults (.readBeforeWrite 2 14) (exec (.vldlVV .vfmask0 3 1) (localStored [0, 1, 14, 3])) = true ∧
    refuses .sharedLocalWrite (exec (.vstlVS .vfmask0 1 6)
      (localStart Config.tc2 8 (List.replicate 16 5))) = true := by decide

/-- 4.5-24. -/
theorem test_vfld : let r := exec (.vfld 2 0 0) (memRegs 0x2000 0 2 (bytes 0x2000 [0x05, 0x02]
    (start Config.tc1 10 [])))
    bits 2 10 r = some [true, false, true, false, false, false, false, false, false, true] ∧
    control 48 r = some 0x2002 := by decide

/-- 4.5-26, 4.5-27, 4.5-28. -/
theorem test_vfst :
    let s := fun vl base inc => flags [[], [], [true, false, true, false, false, false, false, false,
      false, true, false, false, false, false, true, true]] (memRegs base 0 inc (start Config.tc1 vl []))
    memory 0x2010 3 (exec (.vfst 2 0 0) (s 16 0x2010 0)) = some [0x05, 0xC2, 0] ∧
    memory 0x2010 1 (exec (.vfst 2 0 0) (s 0 0x2010 6)) = some [0] ∧
    control 48 (exec (.vfst 2 0 0) (s 0 0x2010 6)) = some 0x2016 ∧
    faults (.misaligned 0x2011 2) (exec (.vfst 2 0 0) (s 10 0x2011 0)) = true := by decide

/-! ### Vector processing (section 4.6) -/

theorem test_merges : let s := scalars 0x10063 (flags [[false, true, false, true]]
    (start Config.tc1 4 [[1, 2, 3, 4], [9, 8, 7, 6]]))
    elems 3 4 (exec (.vmergeVV .vfmask0 3 1 2) s) = some [1, 8, 3, 6] ∧
    elems 3 4 (exec (.vmergeVS .vfmask0 3 1 5) s) = some [1, 0x63, 3, 0x63] ∧
    elems 3 4 (exec (.vmergeSV .vfmask0 3 5 2) s) = some [0x63, 8, 0x63, 6] := by decide

/-- 4.6-4, 4.6-5, 4.6-6, 4.6-7. -/
theorem test_vector_insert : let s := start Config.tc1 2 [[7, 8], List.replicate 16 0xAAAA]
    elems 2 6 (exec (.vinsVV 2 1) { s with vindex := 0x13 }) =
      some [0xAAAA, 0xAAAA, 0xAAAA, 7, 8, 0xAAAA] ∧
    refuses .insertExtractOutOfRange (exec (.vinsVV 2 1) { s with vindex := 15 }) = true ∧
    refuses .sameRegister (exec (.vinsVV 2 2) s) = true := by decide

theorem test_vector_extract : elems 2 3 (exec (.vextVV 2 1) { start Config.tc1 2
    [[0, 0, 0, 7, 8], List.replicate 16 0xAAAA] with vindex := 3 }) = some [7, 8, 0xAAAA] := by decide

theorem test_scalar_insert : elems 2 7 (exec (.vinsVS 2 7) { scalars 0x12345 (start Config.tc1 0
    [[], List.replicate 16 0xAAAA]) with vindex := 5 }) =
    some [0xAAAA, 0xAAAA, 0xAAAA, 0xAAAA, 0xAAAA, 0x2345, 0xAAAA] := by decide

/-- 4.6-10, 4.6-11, 4.6-11a. -/
theorem test_scalar_extract : let s := { start Config.tc1 4 [[0, 0, 0x8001]] with vindex := 2 }
    scalar 7 (exec (.vextVS 7 1) s) = some 0xFFFF8001 ∧ scalar 7 (exec (.vextuVS 7 1) s) = some 0x8001 ∧
    scalar 0 (exec (.vextVS 0 1) s) = some 0 := by decide

theorem test_vcomp : elems 3 4 (exec (.vcomp .vfmask0 3 2) (flags [[false, true, false, false]]
    (start Config.tc1 4 [[], [5, 6, 7, 8], List.replicate 16 0xAAAA]))) = some [5, 7, 8, 0xAAAA] := by decide

theorem test_vexpand : elems 3 4 (exec (.vexpand .vfmask0 3 2) (flags [[false, true, false, false]]
    (start Config.tc1 4 [[], [5, 7, 8], List.replicate 16 0xAAAA]))) = some [5, 0xAAAA, 7, 8] := by decide

/-- 4.6-13. -/
theorem test_vupshift : elems 2 16 (exec (.vupshift 2 1)
    (start Config.tc1 0 [(List.range 16).map (BitVec.ofNat 32)])) =
    some [1, 2, 3, 4, 5, 6, 7, 8, 9, 10, 11, 12, 13, 14, 15, 0] := by decide

/-! ### Flag processing (section 4.7) -/

/-- The start of 4.7-1 to 4.7-7. -/
def flagStart (x : Word) : State := scalars x (flags [[], [true, true, false, false],
  [true, false, true, false], [true, true, true, true, true]] (start Config.tc1 4 []))

theorem test_flag_logic : [(Instr.vfandVV 3 1 2, [true, false, false, false, true]),
    (.vforVV 3 1 2, [true, true, true, false, true]), (.vfxorVV 3 1 2, [false, true, true, false, true]),
    (.vfnorVV 3 1 2, [false, false, false, true, true]),
    (.vfxorVV 3 1 31, [false, false, true, true, true])].all
    (fun p => bits 3 5 (exec p.1 (flagStart 0)) == some p.2) = true := by decide

theorem test_flag_logic_scalar :
    [(Instr.vforVS 3 1 3, (0xFFFFFFFE : Word), [true, true, false, false]),
      (.vfandVS 3 1 3, 1, [true, true, false, false]), (.vfxorVS 3 1 3, 1, [false, false, true, true]),
      (.vfnorVS 3 1 3, 0xFFFFFFFE, [false, false, true, true])].all
      (fun p => bits 3 4 (exec p.1 (flagStart p.2.1)) == some p.2.2) = true := by decide

/-- 4.7-8, 4.7-9, 4.7-10. -/
theorem test_flag_constants : let s := { flagStart 0 with vl := 3 }
    bits 3 4 (exec (.vfclr 3) s) = some [false, false, false, true] ∧
    bits 1 4 (exec (.vfset 1) s) = some [true, true, true, false] ∧
    bits 31 4 (exec (.vfclr 31) s) = some [true, true, true, true] ∧
    bits 30 4 (exec (.vfset 30) s) = some [false, false, false, false] := by decide

/-- 4.7-11. -/
theorem test_vfins : bits 2 5 (exec (.vfinsVS 2 3) { flagStart 1 with vindex := 3, vl := 0 }) =
    some [true, false, true, true, false] := by decide

/-- 4.7-12 to 4.7-15, and the count of R268. -/
theorem test_flag_searches :
    let s := fun vl (f : List Bool) => flags [[], [], f] (start Config.tc1 vl [])
    scalar 6 (exec (.vfff1 6 2) (s 4 [false, false, true, true])) = some 2 ∧
    scalar 6 (exec (.vfff1 6 2) (s 4 [false, false, false, false, true])) = some 4 ∧
    scalar 7 (exec (.vffl1 7 2) (s 4 [false, true, true, false])) = some 2 ∧
    scalar 6 (exec (.vfff1 6 2) (s 0 [true])) = some 0 ∧
    scalar 6 (exec (.vfpop 6 2) (s 3 [true, false, true, true])) = some 2 := by decide

/-- 4.7-16 to 4.7-21. -/
theorem test_flag_scans : let s := fun (f : List Bool) => flags [[], [], f] (start Config.tc1 5 [])
    let a := s [false, false, true, false, true]
    let z := s []
    bits 3 5 (exec (.vfsetbf 3 2) a) = some [true, true, false, false, false] ∧
    bits 3 5 (exec (.vfsetif 3 2) a) = some [true, true, true, false, false] ∧
    bits 3 5 (exec (.vfsetof 3 2) a) = some [false, false, true, false, false] ∧
    bits 3 5 (exec (.vfsetbf 3 2) z) = some [true, true, true, true, true] ∧
    bits 3 5 (exec (.vfsetif 3 2) z) = some [true, true, true, true, true] ∧
    bits 3 5 (exec (.vfsetof 3 2) z) = some [false, false, false, false, false] := by decide

/-- 4.7-22, 4.7-23. -/
theorem test_flag_registers :
    refuses .reservedFlagRegister (exec (.vfandVV 3 18 2) (flagStart 0)) = true ∧
    bits 3 4 (exec (.vforVV 3 16 30) { flagStart 0 with
      f := Vector.ofFn fun q => if q = 16 then [true, true, true, true] else [] }) =
      some [true, true, true, true] := by decide

/-! ### Control register moves (section 4.8) -/

theorem test_vmstc : let s := fun x => scalars x (start Config.tc1 4 [])
    control 0 (exec (.vmstc 0 5) (s 16)) = some 16 ∧ control 0 (exec (.vmstc 0 0) (s 17)) = some 0 ∧
    control 2 (exec (.vmstc 2 5) (s 0x12345678)) = some 0x12345678 ∧
    refuses .vlOutOfRange (exec (.vmstc 0 5) (s 17)) = true ∧
    refuses .staticControlRegister (exec (.vmstc 1 5) (s 32)) = true := by decide

theorem test_vmcts : let s := start Config.tc1 4 []
    scalar 4 (exec (.vmcts 4 30) s) = some 16 ∧ scalar 4 (exec (.vmcts 4 31) s) = some 4 ∧
    scalar 4 (exec (.vmcts 4 29) s) = some 4 ∧ scalar 4 (exec (.vmcts 4 1) s) = some 16 ∧
    scalar 4 (exec (.vmcts 4 28) s) = some 1 ∧
    scalar 4 (exec (.vmcts 4 28) (start Config.tc2 4 [])) = some 2 ∧
    refuses .reservedControlRegister (exec (.vmcts 4 27) s) = true := by decide

/-! ### Witnesses: every hypothesis of a statement is met by a concrete state and operands

The conclusions of the tests above are reached from states of the same shapes. -/

/-- Hypotheses on the parameters alone: `Vmult`, `Vupshift`, `Vmanip`, `FixedPoint`, the MAC units, the
local memory, On and Off (ProductHalves, MultiplyAccumulates, CopyFromAccumulators, SaturatingSums,
RoundingAndSaturatingShifts, FixedPointProducts, CopyAndSaturate, FixedPointOffRefuses,
AbsentUnitsRefuse, Upshifts, VectorInsertAndExtract). -/
theorem witness_parameters :
    State.reset.cfg.vmult = true ∧ State.reset.cfg.vupshift = true ∧ State.reset.cfg.vmanip = true ∧
    State.reset.cfg.fixedPoint = false ∧ macAvailable State.reset.cfg = true ∧
    (start Config.tc1f 4 []).cfg.fixedPoint = true ∧ (start Config.tc1f 4 []).cfg.vmult = true ∧
    macAvailable (start Config.tc1f 4 []).cfg = true ∧
    (start { Config.tc1 with vmult := false } 4 []).cfg.vmult = false ∧
    (start { Config.tc1 with vupshift := false } 4 []).cfg.vupshift = false ∧
    (start { Config.tc1 with vmanip := false } 4 []).cfg.vmanip = false := by decide

theorem witness_AbsentUnitsRefuse :
    (start { Config.tc1 with macl := 0 } 4 []).cfg.macl = 0 ∧
    (start { Config.tc1f with vpuw := .w } 4 []).cfg.w = 32 ∧
    (start { Config.tc1f with vpuw := .w } 4 []).cfg.fixedPoint = true ∧
    (start { Config.tc1f with vmult := false } 4 []).cfg.fixedPoint = true ∧
    (start { Config.tc1f with vmult := false } 4 []).cfg.vmult = false := by decide

/-- Destinations that are not unused, at the edges of the unused range and hardwired (Compares,
FlagLogic, FlagConstants, FlagSearches, PopulationCount, FlagScans, ScalarInsertAndExtract). -/
theorem witness_flag_operands : reservedFlag 0 = false ∧ reservedFlag 17 = false ∧
    reservedFlag 30 = false ∧ reservedFlag 31 = false := by decide

/-- The unused flag registers at both edges of their range. -/
theorem witness_UnusedFlagRegistersRefuse :
    (Instr.vfandVV 18 1 2, [(18 : FReg), 1, 2]) ∈ flagForms .vfmask0 1 2 3 18 1 2 0 0 ∧
    (∃ f ∈ [(18 : FReg), 1, 2], 18 ≤ f.val ∧ f.val ≤ 29) ∧
    (Instr.vfsetbf 1 29, [(1 : FReg), 29]) ∈ flagForms .vfmask0 1 2 3 1 29 2 0 0 ∧
    (∃ f ∈ [(1 : FReg), 29], 18 ≤ f.val ∧ f.val ≤ 29) := by decide

/-- The clauses on an open value: the division corners, the most negative element, an amount of
exactly `W`, of `W - 1`, of `2W`. -/
theorem witness_open_values :
    (pair Config.tc1 5 0 0).signedAt (.vec 2) 0 = 0 ∧
    (pair Config.tc1 0x8000 0xFFFF 0).signedAt (.vec 1) 0 = -2 ^ (Config.tc1.w - 1) ∧
    (pair Config.tc1 0x8000 0xFFFF 0).signedAt (.vec 2) 0 = -1 ∧
    (pair Config.tc1 7 2 0).signedAt (.vec 2) 0 ≠ 0 ∧
    Config.tc1.w = (pair Config.tc1 16 1 0).unsignedAt (.vec 1) 0 ∧
    (pair Config.tc1 15 1 0).unsignedAt (.vec 1) 0 < Config.tc1.w ∧
    2 * Config.tc1f.w = ({ pair Config.tc1f 1 1 0 with vshamt := 32 }).vshamt.toNat := by decide

theorem witness_SignednessDoesNotMatter : let s := pair Config.tc1 0x8000 0xFFFF 3
    (∃ t, exec (.vaddVV .vfmask0 3 1 2) s = .next t) ∧ (∃ u, exec (.vadduVV .vfmask0 3 1 2) s = .next u) ∧
    (∃ t, exec (.vmulloVS .vfmask0 3 1 5) s = .next t) ∧
    (∃ u, exec (.vmullouVS .vfmask0 3 1 5) s = .next u) :=
  ⟨runs_next (by decide), runs_next (by decide), runs_next (by decide), runs_next (by decide)⟩

/-- Chains that have been written, and one that has not. -/
theorem witness_CopyAndZeroAccumulators :
    let s := accs [10, 20, 30, 0x10005] (start { Config.tc2 with fixedPoint := true } 4 [])
    let z := start Config.tc1 4 []
    macAvailable s.cfg = true ∧ s.cfg.fixedPoint = true ∧
    (∀ k, k < accCount s.cfg → accChain s.cfg k = 1 → s.accWritten k = true) ∧
    macAvailable z.cfg = true ∧ z.accWritten 0 = false := by decide

theorem witness_PartialSumsKeepTheTotal : let s := accs [10, 20, 30, 0x10005] (start Config.tc2 4 [])
    validMac s.cfg = true ∧ (5 : VReg) ≠ 0 ∧ ∃ t, exec (.vccacc 5) s = .next t :=
  ⟨by decide, by decide, runs_next (by decide)⟩

/-- The state after an instruction that runs. -/
def after (i : Instr) (s : State) : State := (next? (exec i s)).getD s

theorem next_after {i : Instr} {s : State} (h : runs (exec i s) = true) :
    exec i s = .next (after i s) := by
  obtain ⟨t, ht⟩ := runs_next h
  simp [after, ht, next?]

theorem witness_ReductionFromCleared :
    let s := start Config.tc2 4 [[1, 2, 3, 4], [5, 6, 7, 8]]
    validMac s.cfg = true ∧ ∃ t u, exec (.vcczacc 0) s = .next t ∧
      exec (.vmacVV .vfmask0 1 2) t = .next u :=
  ⟨by decide, after (.vcczacc 0) (start Config.tc2 4 [[1, 2, 3, 4], [5, 6, 7, 8]]), _,
    next_after (by decide), next_after (by decide)⟩

/-- A width below the VP width, equal to it, and above it. -/
theorem witness_SaturateToNarrower : let s := start Config.tc1f 4 []
    s.cfg.fixedPoint = true ∧ Width.b.bits < s.cfg.w ∧ Width.h.bits = s.cfg.w ∧
    s.cfg.w < Width.w.bits := by decide

/-! Main memory: 16 VPs up to the last byte of plain memory, and the forms in an instance of 32-bit
VPs. -/

theorem witness_UnitStrideLoads :
    let s := memStart 16 0xFFE0 0 0 []
    legalAccesses s .b .vfmask0 0 (s.unitAddr 0 .b) ∧ legalAccesses s .h .vfmask0 0 (s.unitAddr 0 .h) ∧
    legalAccesses (wide (memStart 16 0xFFC0 0 0 [])) .w .vfmask0 0
      ((wide (memStart 16 0xFFC0 0 0 [])).unitAddr 0 .w) :=
  ⟨by decide, by decide, by decide⟩

theorem witness_ConstantStrideLoads :
    let s := memStart 16 0x001E 0xFFFFFFFF 0 []
    legalAccesses s .h .vfmask0 0 (s.strideAddr 0 0 .h) ∧
    legalAccesses (wide (memStart 2 0x2000 3 0 [])) .w .vfmask0 0
      ((wide (memStart 2 0x2000 3 0 [])).strideAddr 0 0 .w) := by decide

theorem witness_IndexedLoads :
    let s := memStart 3 0x2004 0 0 [[0xFFFC, 0x0002, 0x0000]]
    legalAccesses s .h .vfmask0 1 (s.indexAddr 1 1) ∧
    legalAccesses (wide (memStart 2 0x2000 0 0 [[4, 0]])) .w .vfmask0 0
      ((wide (memStart 2 0x2000 0 0 [[4, 0]])).indexAddr 0 1) := by decide

/-- The stores beside an 8-word program at `0x1000`, the first legal address past it (R74). -/
theorem witness_UnitStrideStores :
    let s := { storeStart 4 0x1020 0 with program := List.replicate 8 0 }
    legalAccesses s .h .vfmask0 0 (s.unitAddr 0 .h) ∧
    avoidsCode s Width.h.bytes .vfmask0 (s.unitAddr 0 .h) := by decide

theorem witness_ConstantStrideStores :
    let s := { storeStart 4 0x2000 0 with program := List.replicate 8 0 }
    legalAccesses s .h .vfmask0 0 (s.strideAddr 0 0 .h) ∧
    avoidsCode s Width.h.bytes .vfmask0 (s.strideAddr 0 0 .h) ∧
    lastStoring s .vfmask0 (s.strideAddr 0 0 .h) 0 3 :=
  ⟨by decide, by decide, by decide, fun l _ ha _ => by
    have : l < 4 := by
      have h := (Bool.and_eq_true_iff.mp ha).1
      simpa [State.vlen, storeStart, memRegs, start] using h
    omega⟩

/-- Two VPs store to one address. -/
theorem witness_IndexedStores :
    let s := { storeStart 3 0x2000 0 with program := List.replicate 8 0 }
    legalAccesses s .b .vfmask0 0 (s.indexAddr 0 2) ∧
    avoidsCode s Width.b.bytes .vfmask0 (s.indexAddr 0 2) ∧ s.indexAddr 0 2 0 = s.indexAddr 0 2 1 := by
  decide

theorem witness_MisalignedBaseFaults : let s := memStart 2 0x2001 0 0 [[5, 6]]
    (Instr.vstH .vfmask0 1 0 0, Width.h, s.unitAddr 0 .h) ∈ storeForms s .vfmask0 1 2 0 0 0 ∧
    (widthAvailable s.cfg .h = true ∧ (s.base 0 : Int) % Width.h.bytes ≠ 0 ∧
      avoidsCode s Width.h.bytes .vfmask0 (s.unitAddr 0 .h)) ∧
    (s.base 0 : Int) % (s.cfg.w / 8 : Nat) ≠ 0 ∧ 0 < s.flagBytes ∧ flagBytesAvoidCode s 0 := by
  refine ⟨by simp [storeForms], ?_⟩
  decide

/-- A misaligned VP after a legal one; an address of -1, one past the address space; an unmapped one. -/
theorem witness_FirstIllegalAccessFaults :
    let s := memStart 2 0x2004 0 0 [[0xFFFC, 0x0001]]
    let n := memStart 1 0 0 0 [[0xFFFF]]
    let p := memStart 2 0xFFFFFFFF 0 0 [[]]
    let u := memStart 1 0x10000 0 0 [[]]
    (Instr.vldxH .vfmask0 2 1 0, Width.h, s.indexAddr 0 1) ∈ loadForms s .vfmask0 2 1 0 0 0 ∧
    (widthAvailable s.cfg .h = true ∧ (s.base 0 : Int) % Width.h.bytes = 0 ∧
      s.active .vfmask0 1 = true ∧ legalAccess s.cfg (s.indexAddr 0 1 0) 2 ∧
      s.indexAddr 0 1 1 % 2 ≠ 0 ∧ avoidsCode s Width.h.bytes .vfmask0 (s.indexAddr 0 1)) ∧
    (n.active .vfmask0 0 = true ∧ n.indexAddr 0 1 0 < 0) ∧
    (p.active .vfmask0 1 = true ∧ 2 ^ 32 < p.unitAddr 0 .b 1 + 1) ∧
    u.active .vfmask0 0 = true ∧ plainByte u.cfg ((u.unitAddr 0 .b 0).toNat + 0) = false := by
  refine ⟨by simp [loadForms], ?_⟩
  decide

/-- Flag accesses whose second byte is not mapped, and whose third lies past the address space. -/
theorem witness_FirstIllegalFlagByte :
    let u := memRegs 0x10000 0 0
      (start { Config.tc1 with memMap := [{ base := 0, size := 65537 }] } 10 [])
    let p := memRegs 0xFFFFFFFE 0 0
      (start { Config.tc1 with logMvl := 5, memMap := [{ base := 0xFFFFFFFE, size := 2 }] } 17 [])
    ((u.base 0 : Int) % (u.cfg.w / 8 : Nat) = 0 ∧ 1 < u.flagBytes ∧ flagBytesAvoidCode u 0 ∧
      (∀ j, j < 1 → legalAccess u.cfg (u.flagAddr 0 j) 1) ∧ u.base 0 + 1 < 2 ^ 32 ∧
      plainByte u.cfg (u.base 0 + 1) = false) ∧
    (p.base 0 : Int) % (p.cfg.w / 8 : Nat) = 0 ∧ 2 < p.flagBytes ∧ flagBytesAvoidCode p 0 ∧
    (∀ j, j < 2 → legalAccess p.cfg (p.flagAddr 0 j) 1) ∧ 2 ^ 32 ≤ p.base 0 + 2 := by decide

/-- Bytes where `MemMinWidth` is 16, words where `VPUW` is 16; a store to the last byte of the program,
and a misaligned one. -/
theorem witness_WidthAndCodeRefusals :
    let s := memRegs 0x101F 0 0 { storeStart 1 0x101F 0 with program := List.replicate 8 0 }
    Width.b.bits < ({ Config.tc1 with memMinWidth := .h }).memMinWidth.bits ∧
    Config.tc1.w < Width.w.bits ∧
    (widthAvailable s.cfg .b = true ∧ widthAvailable s.cfg .h = true) ∧
    s.active .vfmask0 0 = true ∧ s.hitsCode Width.b.bytes (s.unitAddr 0 .b 0) = true ∧
    s.hitsCode Width.h.bytes (s.unitAddr 0 .h 0) = true ∧
    0 < s.flagBytes ∧ s.hitsCode 1 (s.flagAddr 0 0) = true := by decide

/-- FlagLoad and FlagStore: `VL` of 0, 10 and 16. -/
theorem witness_flag_memory :
    let s := fun vl => memRegs 0x2010 0 2 (start Config.tc1 vl [])
    legalFlagAccess (s 0) 0 ∧ legalFlagAccess (s 10) 0 ∧ legalFlagAccess (s 16) 0 ∧
    flagBytesAvoidCode (s 10) 0 := by decide

theorem witness_LocalLoads : let s := localStored [0, 1, 15, 3]
    s.cfg.lMemN ≠ 0 ∧ (∀ k, k < s.cfg.mvl → s.active .vfmask0 k = true →
      s.localAddr 1 k < localWords s.cfg ∧ (s.localRead k (s.localAddr 1 k)).isSome = true) := by decide

/-- Private sections, and blocks shared by at most `NLane` VPs; the last word of each. -/
theorem witness_LocalStores :
    let s := localStart Config.tc1 4 [0, 1, 15, 3]
    let t := localStart Config.tc2 4 [63, 0, 63, 5]
    s.cfg.lMemN ≠ 0 ∧ s.cfg.lMemShare = false ∧
    (∀ k, k < s.cfg.mvl → s.active .vfmask0 k = true → s.localAddr 1 k < localWords s.cfg) ∧
    t.cfg.lMemShare = true ∧ t.vlen ≤ t.cfg.nLane ∧
    (∀ k, k < t.cfg.mvl → t.active .vfmask0 k = true → t.localAddr 1 k < localWords t.cfg) := by decide

/-- No local memory; too many VPs; the first word past a section after legal VPs, of a shared block
with more VPs than lanes (`vldl`) and after words nothing has written (`vstl`); an unwritten word. -/
theorem witness_LocalMemoryStops :
    let r := localStored [0, 1, 16, 3]
    let w := localStored [0, 1, 14, 3]
    let sh := localStart Config.tc2 5 [64]
    let un := localStart Config.tc1 2 [0, 16]
    (start { Config.tc1 with lMemN := 0 } 4 []).cfg.lMemN = 0 ∧
    (start Config.tc2 5 []).cfg.lMemShare = true ∧ (start Config.tc2 5 []).cfg.nLane < (start Config.tc2 5 []).vlen ∧
    (r.active .vfmask0 2 = true ∧ localWords r.cfg ≤ r.localAddr 1 2 ∧
      ∀ j, j < 2 → r.active .vfmask0 j = true → r.localAddr 1 j < localWords r.cfg ∧
        (r.localRead j (r.localAddr 1 j)).isSome = true) ∧
    (sh.cfg.lMemShare = true ∧ sh.cfg.nLane < sh.vlen ∧ sh.active .vfmask0 0 = true ∧
      localWords sh.cfg ≤ sh.localAddr 1 0) ∧
    (un.cfg.lMemShare = false ∧ un.active .vfmask0 1 = true ∧ localWords un.cfg ≤ un.localAddr 1 1 ∧
      un.localAddr 1 0 < localWords un.cfg ∧ un.localRead 0 (un.localAddr 1 0) = none) ∧
    w.active .vfmask0 2 = true ∧ w.localAddr 1 2 < localWords w.cfg ∧
    w.localRead 2 (w.localAddr 1 2) = none ∧
    (∀ j, j < 2 → w.active .vfmask0 j = true → w.localAddr 1 j < localWords w.cfg ∧
      (w.localRead j (w.localAddr 1 j)).isSome = true) := by decide

/-- The last element that still fits, and one too far; two registers that differ, as CompressAndExpand
also asks. -/
theorem witness_VectorInsertAndExtract :
    let s := { start Config.tc1 2 [] with vindex := 14 }
    let t := { start Config.tc1 2 [] with vindex := 15 }
    s.cfg.vmanip = true ∧ (2 : VReg) ≠ 1 ∧ s.vindex.toNat % s.cfg.mvl + s.vlen = s.cfg.mvl ∧
    t.cfg.mvl < t.vindex.toNat % t.cfg.mvl + t.vlen := by decide

theorem witness_ExpandUndoesCompress : let s := flags [[false, true]] (start Config.tc1 4 [[], [5, 6, 7, 8]])
    ∃ t u, exec (.vcomp .vfmask0 3 2) s = .next t ∧ exec (.vexpand .vfmask0 4 3) t = .next u :=
  ⟨after (.vcomp .vfmask0 3 2) (flags [[false, true]] (start Config.tc1 4 [[], [5, 6, 7, 8]])), _,
    next_after (by decide), next_after (by decide)⟩

/-- The run of `MVL` steps, in an instance whose `MVL` is 2. -/
theorem witness_Upshifts : let s := start { Config.tc1 with logMvl := 1 } 2 [[7, 8]]
    ∃ run : Nat → State, run 0 = s ∧
      ∀ n, n < s.cfg.mvl → exec (.vupshift 1 1) (run n) = .next (run (n + 1)) := by
  refine ⟨fun n => Nat.rec (start { Config.tc1 with logMvl := 1 } 2 [[7, 8]])
    (fun _ u => after (.vupshift 1 1) u) n, rfl, fun n h => ?_⟩
  have : n = 0 ∨ n = 1 := by
    have : n < 2 := h
    omega
  rcases this with rfl | rfl
  · exact next_after (by decide)
  · exact next_after (by decide)

/-- The edges of the undefined, the static and the writable numbers; `VL` at `MVL` and above it. -/
theorem witness_ControlWrites :
    (¬ (4 ≤ (3 : CReg).val ∧ (3 : CReg).val ≤ 27) ∧ ¬ ((3 : CReg).val = 1 ∨ (28 ≤ (3 : CReg).val ∧ (3 : CReg).val ≤ 31))) ∧
    (4 ≤ (4 : CReg).val ∧ (27 : CReg).val ≤ 27) ∧ (28 ≤ (28 : CReg).val ∧ (31 : CReg).val ≤ 31) ∧
    31 < (32 : CReg).val ∧
    ¬ (scalars 16 (start Config.tc1 4 [])).cfg.mvl < ((scalars 16 (start Config.tc1 4 [])).xreg 5).toNat ∧
    (scalars 17 (start Config.tc1 4 [])).cfg.mvl < ((scalars 17 (start Config.tc1 4 [])).xreg 5).toNat := by
  decide

/-- The last numbers of every group of control registers. -/
theorem witness_ControlReads : (39 : CReg).val = 32 + (7 : VStride).val ∧
    (47 : CReg).val = 40 + (7 : VInc).val ∧ (63 : CReg).val = 48 + (15 : VBase).val := by decide

/-! Encoding and the step. -/

theorem witness_DecodeOfEncode : Config.tc1.layout = FieldLayout.r93 ∧
    (Instr.vsat .b .vfmask1 63 63).wellFormed Config.tc1 = true := by decide

theorem witness_EncodeOfDecode :
    decodeWord Config.tc1 0xFC021A7E = .instr (.vmcts 8 63) ∧ decodeWord Config.tc1 0x3C = .scalar := by
  decide

/-- A state whose `pc` stands at a word. -/
def standing (w : Word) : State := { State.resetOf Config.tc1 0x1000 with program := [0, w], pc := 0x1004 }

theorem witness_StepRunsDecodedInstruction : standsAt (standing 0x0420C03D) 0x0420C03D ∧
    decodeWord (standing 0x0420C03D).cfg 0x0420C03D = .instr (.vaddVV .vfmask0 3 1 2) ∧
    encode (standing 0x0420C03D).cfg.layout (.vaddVV .vfmask0 3 1 2) = some 0x0420C03D :=
  ⟨⟨1, by decide, by decide⟩, by decide, by decide⟩

theorem witness_StepOfOtherWords :
    (standsAt (standing 0x93D) 0x93D ∧ decodeWord (standing 0x93D).cfg 0x93D = .reserved) ∧
    (standsAt (standing 0x3C) 0x3C ∧ (0x3C : Word).toNat % 64 ∉ [0x3D, 0x3E, 0x3F]) ∧
    ({ standing 0 with pc := 0x1008 }).pc.toNat =
      (standing 0).startPC.toNat + 4 * (standing 0).program.length ∧
    (∀ n, n ≤ (standing 0).program.length →
      ({ standing 0 with pc := 0x1002 }).pc.toNat ≠ (standing 0).startPC.toNat + 4 * n) :=
  ⟨⟨⟨1, by decide, by decide⟩, by decide⟩, ⟨⟨1, by decide, by decide⟩, by decide⟩, by decide, by decide⟩

/-- ProgramCounter, OnlyTheirInstructionsWrite and InactiveElementsAreNotRead: an instruction that
answers a next state, with VPs that are not active; and other contents for those. -/
theorem witness_InactiveElementsAreNotRead :
    let s := start Config.tc1 2 [[1, 2, 3], [4, 5, 6]]
    (∃ t, exec (.vdivVV .vfmask0 3 1 2) s = .next t) ∧
    Instr.vdivVV .vfmask0 3 1 2 ∈ elementForms .vfmask0 3 1 2 5 ∧
    ((∃ t, exec (.vsat .b .vfmask0 3 1) { s with cfg := Config.tc1f } = .next t) ∧
      Instr.vsat .b .vfmask0 3 1 ∈ fixedPointElementForms .b .vfmask0 3 1 2 5) ∧
    ∀ r k, s.active .vfmask0 k = true →
      State.velem { s with v := (start Config.tc1 2 [[1, 2, 9], [4, 5, 9]]).v } r k = s.velem r k := by
  refine ⟨runs_next (by decide), by decide, ⟨runs_next (by decide), by decide⟩, fun r k h => ?_⟩
  have hk : k < 2 := by
    have h' := (Bool.and_eq_true_iff.mp h).1
    simpa [State.vlen, start] using h'
  have : ∀ r : VReg, ∀ k, k < 2 →
      State.velem { start Config.tc1 2 [[1, 2, 3], [4, 5, 6]] with
        v := (start Config.tc1 2 [[1, 2, 9], [4, 5, 9]]).v } r k =
      (start Config.tc1 2 [[1, 2, 3], [4, 5, 6]]).velem r k := by decide
  exact this r k hk

/-- The invariant with VPs, flags and bytes of memory in it, and a step. -/
theorem witness_InvariantKept :
    let s := bytes 0x2000 [0x80, 0x7F] ((scalars 9 State.reset).withFetchWord 32 0x00101A3E)
    Machine.Inv s ∧ ∃ t, step s = .next t := by
  refine ⟨⟨by decide, fun r => ?_, fun q => ?_, by decide, ⟨by decide, by decide⟩,
    ⟨by decide, by decide⟩, ⟨by decide, by decide⟩⟩, runs_next (by decide)⟩
  · have h : State.reset.v.get r = List.replicate 16 0 := Vector.getElem_replicate ..
    show (State.reset.v.get r).length = 16 ∧ ∀ e ∈ State.reset.v.get r, e.toNat < 2 ^ 16
    rw [h]
    exact ⟨List.length_replicate .., fun e he => by rw [List.eq_of_mem_replicate he]; decide⟩
  · revert q; decide

theorem witness_ResetState : validConfig Config.tc1 = true ∧ validConfig Config.tc2 = true ∧
    validConfig Config.tc1f = true := by decide

end Sys2Proof.Tests
end

section
/-! The scope rules (00_scope.md), across two states: what the element loops of R14 take from the
vector registers. The two states differ in their vector registers alone, and there only in the
elements of VPs that are not active. -/

namespace Sys2Proof.Machine

/-- The vector registers `v` hold, in the elements of the active VPs, what those of `s` hold. -/
def agreesOnActive (m : MaskSel) (s : State) (v : Vector (List Elem) 64) : Prop :=
  ∀ r k, s.active m k = true → State.velem { s with v := v } r k = s.velem r k

/-- R14 for what an operation answers from `s` (`res`) and from `s` with the vector registers `v`
(`res'`): where the first is a next state so is the second, with the same flags and the same active
elements, and each of the two leaves the inactive elements of its own start alone. -/
def sameOnActive (m : MaskSel) (s : State) (v : Vector (List Elem) 64) (res res' : Result) : Prop :=
  ∀ t, res = .next t → ∃ t', res' = .next t' ∧ t'.f = t.f ∧ ∀ r k, k < s.cfg.mvl →
    (s.active m k = true → t'.velem r k = t.velem r k) ∧
    (s.active m k = false →
      t'.velem r k = State.velem { s with v := v } r k ∧ t.velem r k = s.velem r k)

/-! ### Writing a vector register, element by element -/

/-- Writing back the old value of an element leaves it as it was in every register. -/
theorem State.velem_setV_of_kept (s : State) {vd : VReg} {g : Nat → Elem} {k : Nat}
    (hk : k < s.cfg.mvl) (hg : g k = s.velem vd k) (r : VReg) :
    (s.setV vd g).velem r k = s.velem r k := by
  rw [State.velem_setV]
  split_ifs with hr
  · rw [hg, hr.2]
  · rfl

/-- An element reads the same after two writes that give it the same value, in states where it read
the same before. -/
theorem State.velem_setV_congr (s s' : State) {vd : VReg} {g g' : Nat → Elem} {k : Nat}
    (hc : s'.cfg = s.cfg) (hg : g' k = g k) {r : VReg} (hr : s'.velem r k = s.velem r k) :
    (s'.setV vd g').velem r k = (s.setV vd g).velem r k := by
  rw [State.velem_setV, State.velem_setV, hc, hg, hr]

section
variable {m : MaskSel} {s : State} {v : Vector (List Elem) 64}

/-! ### What an active VP reads -/

theorem agreesOnActive.source_eq (h : agreesOnActive m s v) (o : Source) {k : Nat}
    (hk : s.active m k = true) : State.source { s with v := v } o k = s.source o k := by
  cases o with
  | vec r => exact h r k hk
  | scalar r => rfl

theorem agreesOnActive.elemResult_eq (h : agreesOnActive m s v) (op : ElemOp) (a b : Source)
    {k : Nat} (hk : s.active m k = true) :
    State.elemResult { s with v := v } op a b k = s.elemResult op a b k := by
  unfold State.elemResult
  rw [h.source_eq a hk, h.source_eq b hk]
  rfl

/-! ### The shared operations -/

/-- A check that does not look at the vector registers lets both states pass or neither. -/
theorem sameOnActive.require {res res' : Result} (h : sameOnActive m s v res res') (ok : Bool)
    (e : Refusal) : sameOnActive m s v (require ok e res) (require ok e res') := by
  intro t ht
  obtain ⟨hok, ht⟩ := (require_next t).mp ht
  obtain ⟨t', ht', hpost⟩ := h t ht
  exact ⟨t', (require_next t').mpr ⟨hok, ht'⟩, hpost⟩

theorem elementwise_sameOnActive (h : agreesOnActive m s v) (vd : VReg) (a b : Source)
    (op : ElemOp) :
    sameOnActive m s v (s.elementwise m vd a b op)
      (State.elementwise { s with v := v } m vd a b op) := by
  intro t ht
  rw [elementwise_next] at ht
  subst ht
  refine ⟨_, (elementwise_next ..).mpr rfl, rfl, fun r k hk => ⟨fun ha => ?_, fun ha => ⟨?_, ?_⟩⟩⟩
  · refine State.velem_setV_congr s { s with v := v } rfl ?_ (h r k ha)
    exact (if_pos ha).trans ((h.elemResult_eq op a b ha).trans (if_pos ha).symm)
  · refine State.velem_setV_of_kept { s with v := v } hk ?_ r
    exact if_neg (Bool.eq_false_iff.mp ha)
  · refine State.velem_setV_of_kept s hk ?_ r
    exact if_neg (Bool.eq_false_iff.mp ha)

theorem compare_sameOnActive (h : agreesOnActive m s v) (fd : FReg) (a b : Source) (op : CmpOp) :
    sameOnActive m s v (s.compare m fd a b op) (State.compare { s with v := v } m fd a b op) := by
  intro t ht
  obtain ⟨hf, rfl⟩ := (compare_next ..).mp ht
  refine ⟨_, (compare_next ..).mpr ⟨hf, rfl⟩, ?_, fun r k _ => ⟨h r k, fun _ => ⟨rfl, rfl⟩⟩⟩
  refine congrArg (fun g => (s.flagSideEffect.setF fd g).f) (funext fun k => ?_)
  refine ite_congr rfl (fun ha => ?_) fun _ => rfl
  rw [h.source_eq a ha, h.source_eq b ha]

/-! ### The families of instructions -/

/-- R132 to R148, R170 to R175: the loop, for the products behind the check of `Vmult`. -/
theorem elementForms_sameOnActive (h : agreesOnActive m s v) (vd va vb : VReg) (rs : SReg) :
    ∀ i ∈ elementForms m vd va vb rs, sameOnActive m s v (exec i s) (exec i { s with v := v }) := by
  have loop {a b : Source} {op : ElemOp} := elementwise_sameOnActive h vd a b op
  have product {a b : Source} {op : ElemOp} :=
    (elementwise_sameOnActive h vd a b op).require s.cfg.vmult .featureOff
  simp only [elementForms, List.forall_mem_cons]
  exact ⟨
    -- `vabs`, `vabsdiff`
    loop, loop, loop,
    -- `vadd`, `vaddu`
    loop, loop, loop, loop,
    -- `vsub`, `vsubu`
    loop, loop, loop, loop, loop, loop,
    -- `vmulhi`, `vmulhiu`, `vmullo`, `vmullou`
    product, product, product, product, product, product, product, product,
    -- `vdiv`, `vdivu`
    loop, loop, loop, loop, loop, loop,
    -- `vsra`
    loop, loop, loop,
    -- `vmin`, `vminu`, `vmax`, `vmaxu`
    loop, loop, loop, loop, loop, loop, loop, loop,
    -- `vand`, `vor`, `vxor`
    loop, loop, loop, loop, loop, loop,
    -- `vsll`, `vsrl`, `vrot`
    loop, loop, loop, loop, loop, loop, loop, loop, loop,
    List.forall_mem_nil _⟩

/-- R180 to R196: the loop behind the check of `FixedPoint`, and for the saturates to a width and the
products behind a second check. -/
theorem fixedPointElementForms_sameOnActive (h : agreesOnActive m s v) (n : Width)
    (vd va vb : VReg) (rs : SReg) :
    ∀ i ∈ fixedPointElementForms n m vd va vb rs,
      sameOnActive m s v (exec i s) (exec i { s with v := v }) := by
  have gate {res res' : Result} (hr : sameOnActive m s v res res') :=
    hr.require s.cfg.fixedPoint .fixedPointNotImplemented
  have loop {a b : Source} {op : ElemOp} := gate (elementwise_sameOnActive h vd a b op)
  have product {a b : Source} {op : ElemOp} :=
    gate ((elementwise_sameOnActive h vd a b op).require s.cfg.vmult .featureOff)
  have saturate {ok : Bool} {op : ElemOp} :=
    gate ((elementwise_sameOnActive h vd (.vec va) (.vec va) op).require ok .widthNotAvailable)
  simp only [fixedPointElementForms, List.forall_mem_cons]
  exact ⟨
    -- `vsadd.vv`, `vssub.vv`, `vsat`, `vsrr`, `vsls`
    loop, loop, saturate, loop, loop,
    -- `vxmulhi.vv`, `vxmullo.vv`, `vsaddu.vv`, `vssubu.vv`
    product, product, loop, loop,
    -- `vsatu`, `vsrru`, `vslsu`, `vxmulhiu.vv`, `vxmullou.vv`, `vsatsu`
    saturate, loop, loop, product, product, saturate,
    -- `vsadd.vs`, `vssub.vs`, `vxmulhi.vs`, `vxmullo.vs`
    loop, loop, product, product,
    -- `vsaddu.vs`, `vssubu.vs`, `vxmulhiu.vs`, `vxmullou.vs`
    loop, loop, product, product,
    -- `vssub.sv`, `vssubu.sv`
    loop, loop,
    List.forall_mem_nil _⟩

/-- R149 to R154: the loop of a compare. -/
theorem compareForms_sameOnActive (h : agreesOnActive m s v) (fd : FReg) (va vb : VReg) (rs : SReg) :
    ∀ i ∈ compareForms m fd va vb rs, sameOnActive m s v (exec i s) (exec i { s with v := v }) := by
  have loop {a b : Source} {op : CmpOp} := compare_sameOnActive h fd a b op
  simp only [compareForms, List.forall_mem_cons]
  exact ⟨loop, loop, loop, loop, loop, loop, loop, loop, loop, loop,
    loop, loop, loop, loop, loop, loop, List.forall_mem_nil _⟩

end

/-- Settles O58: an instruction of the three families runs one of the two element loops behind checks
that do not look at the vector registers, and the loops read active elements alone. -/
theorem inactiveElementsAreNotRead : Obligations.InactiveElementsAreNotRead := by
  unfold Obligations.InactiveElementsAreNotRead
  intro s t v n m vd va vb fd rs s' h i hi ht
  have same : sameOnActive m s v (exec i s) (exec i s') := by
    simp only [List.mem_append] at hi
    obtain (hi | hi) | hi := hi
    · exact elementForms_sameOnActive h vd va vb rs i hi
    · exact fixedPointElementForms_sameOnActive h n vd va vb rs i hi
    · exact compareForms_sameOnActive h fd va vb rs i hi
  exact same t ht

end Sys2Proof.Machine
end

section
/-! The invariant of the machine (R20, R23, R33, R38, R41, R61): the parts of `Inv` one by one, kept by
every effect an instruction can have, and by the step of the scalar core. -/

namespace Sys2Proof.Machine

/-! ### What valid accumulator parameters give (R35, R38) -/

section
variable {c : Config}

theorem validMac_w_le_accW (h : validMac c = true) : c.w ≤ c.accW := by
  simp only [validMac, Bool.and_eq_true, decide_eq_true_eq] at h
  tauto

theorem validMac_partialCount_le (h : validMac c = true) : partialCount c ≤ c.mvl := by
  simp only [validMac, Bool.and_eq_true, decide_eq_true_eq] at h
  tauto

theorem macAvailable_macl_ne_zero (h : macAvailable c = true) : c.macl ≠ 0 := by
  simp only [macAvailable, Bool.and_eq_true, bne_iff_ne] at h
  exact h.1

/-- R38: under valid parameters with accumulators every VP feeds one of them. -/
theorem accOf_lt_accCount (hv : validMac c = true) (ha : macAvailable c = true) {i : Nat}
    (hi : i < c.mvl) : accOf c i < accCount c := by
  simp only [validMac, Bool.and_eq_true, decide_eq_true_eq, beq_iff_eq, List.all_eq_true] at hv
  obtain ⟨⟨⟨⟨⟨⟨⟨-, -⟩, hlen⟩, hmap⟩, -⟩, -⟩, -⟩, -⟩ := hv
  have hi' : i < c.accmap.length := hlen ▸ hi
  rw [accCount, if_neg (macAvailable_macl_ne_zero ha), accOf, List.getD_eq_getElem _ _ hi']
  exact hmap _ (List.getElem_mem hi')

end

/-! ### The copies from the accumulators -/

/-- R35: under valid parameters with accumulators the partial result vector fits in a register. -/
theorem partialCount_le_mvl {c : Config} (hc : validConfig c = true) (ha : macAvailable c = true) :
    partialCount c ≤ c.mvl := by
  have hmacl := macAvailable_macl_ne_zero ha
  simp only [validConfig, Bool.and_eq_true, Bool.or_eq_true, beq_iff_eq, hmacl, false_or] at hc
  exact validMac_partialCount_le hc.2

theorem vectorsFit_copyPartials {s : State} (h : vectorsFit s) {vd : VReg} {g : Nat → Elem}
    (fit : ∀ k, fits s.cfg (g k)) : vectorsFit (s.copyPartials vd g) := by
  refine vectorsFit_setV h fun k _ => ?_
  show fits _ (if _ then _ else _)
  split_ifs
  · exact fit k
  · exact fits_velem h vd k

/-- R33: `VL` after a copy is `P`, which is at most `MVL`. -/
theorem vlen_copyPartials_le {s : State} (hc : validConfig s.cfg = true)
    (ha : macAvailable s.cfg = true) (vd : VReg) (g : Nat → Elem) :
    (s.copyPartials vd g).vlen ≤ s.cfg.mvl :=
  calc (s.copyPartials vd g).vlen = partialCount s.cfg % 2 ^ 32 := BitVec.toNat_ofNat _ _
    _ ≤ partialCount s.cfg := Nat.mod_le _ _
    _ ≤ s.cfg.mvl := partialCount_le_mvl hc ha

theorem accumulatorsFit_zeroAccumulators (s : State) : accumulatorsFit s.zeroAccumulators := by
  refine ⟨List.length_replicate .., fun a ha => ?_⟩
  rw [List.eq_of_mem_replicate ha]
  exact Nat.two_pow_pos _

/-! ### `VL` -/

theorem State.setCreg_vl_of_ne (s : State) {n : CReg} (h : n ≠ 0) (a : Word) :
    (s.setCreg n a).vl = s.vl :=
  if_neg fun hn => h (Fin.ext hn)

/-! ### What an effect keeps -/

section
variable {i : Instr} {s t : State}

theorem Effect.pc_eq (e : Effect i s t) : t.pc = s.pc + 4 := by cases e <;> rfl

theorem Effect.cfg_eq (e : Effect i s t) : t.cfg = s.cfg := by cases e <;> rfl

theorem Effect.program_eq (e : Effect i s t) : t.program = s.program := by cases e <;> rfl

theorem Effect.startPC_eq (e : Effect i s t) : t.startPC = s.startPC := by cases e <;> rfl

theorem Effect.vectorsFit (e : Effect i s t) (hl : localMemoryFits s) (h : vectorsFit s) :
    vectorsFit t := by
  cases e with
  | vector vd g fit => exact vectorsFit_setV h (fit h)
  | load vd g fit => exact vectorsFit_setV h (fit h hl)
  | loadIncrement vd g vb vi fit => exact vectorsFit_setV h (fit h)
  | copy vd g _ _ _ _ fit => exact vectorsFit_copyPartials h fit
  | copyZero vd g _ _ _ _ fit => exact vectorsFit_copyPartials h fit
  | _ => exact h

theorem Effect.flagsFit (e : Effect i s t) (h : flagsFit s) : flagsFit t := by
  cases e with
  | vector vd g => exact flagsFit_flagSideEffect (s := s.setV vd g) h
  | extract rs a => exact flagsFit_flagSideEffect (s := s.setX rs a) h
  | accumulate acc => exact flagsFit_flagSideEffect (s := { s with acc := acc }) h
  | copy vd g => exact flagsFit_flagSideEffect (s := s.copyPartials vd g) h
  | copyZero vd g => exact flagsFit_flagSideEffect (s := (s.copyPartials vd g).zeroAccumulators) h
  | compare fd g => exact flagsFit_setF (flagsFit_flagSideEffect h)
  | flag fd g => exact flagsFit_setF h
  | flagDraw fd g => exact flagsFit_setF h
  | flagLoad fd g vb vi => exact flagsFit_setF h
  | _ => exact h

theorem Effect.vlen_le (e : Effect i s t) (hc : validConfig s.cfg = true) (h : s.vlen ≤ s.cfg.mvl) :
    t.vlen ≤ s.cfg.mvl := by
  cases e with
  | copy vd g _ _ _ avail => exact vlen_copyPartials_le hc avail vd g
  | copyZero vd g _ _ _ avail => exact vlen_copyPartials_le hc avail vd g
  | control vc a _ legal =>
    by_cases hv : vc = 0
    · subst hv
      exact legal rfl
    · have hvl := congrArg BitVec.toNat (s.setCreg_vl_of_ne hv a)
      exact hvl.trans_le h
  | _ => exact h

theorem Effect.accumulatorsFit (e : Effect i s t) (h : accumulatorsFit s) : accumulatorsFit t := by
  cases e with
  | accumulate acc _ fit => exact fit
  | copyZero vd g => exact accumulatorsFit_zeroAccumulators (s.copyPartials vd g)
  | _ => exact h

theorem Effect.memoryFits (e : Effect i s t) (h : memoryFits s) : memoryFits t := by
  cases e with
  | store mem _ fit => exact fit h
  | storeDraw mem _ fit => exact fit h
  | storeIncrement mem vb vi _ fit => exact fit h
  | flagStore mem vb vi _ fit => exact fit h
  | _ => exact h

theorem Effect.localMemoryFits (e : Effect i s t) (h : localMemoryFits s) : localMemoryFits t := by
  cases e with
  | localStore lmem _ fit => exact fit h
  | _ => exact h

theorem Effect.inv (e : Effect i s t) (h : Inv s) : Inv t := by
  obtain ⟨hc, hv, hf, hvl, ha, hm, hl⟩ := h
  exact ⟨e.cfg_eq ▸ hc, e.vectorsFit hl hv, e.flagsFit hf, e.cfg_eq ▸ e.vlen_le hc hvl,
    e.accumulatorsFit ha, e.memoryFits hm, e.localMemoryFits hl⟩

end

/-! ### The scalar core -/

/-- R61: bytes written one after the other to plain memory keep the form of main memory. -/
theorem memoryFits_foldl_write {s : State} {cells : List Host.Cell}
    (hp : ∀ c ∈ cells, plainByte s.cfg c.1 = true) (h : memoryFits s) :
    memoryFits { s with mem := cells.foldl (fun mem c => mem.write c.1 c.2) s.mem } := by
  induction cells generalizing s with
  | nil => exact h
  | cons c cells ih =>
    refine ih (s := { s with mem := s.mem.write c.1 c.2 })
      (fun d hd => hp d (List.mem_cons_of_mem c hd)) ⟨Memory.wf_write h.1 c.1 c.2, fun d hd => ?_⟩
    rcases Memory.mem_write hd with hd | hd
    · exact hd ▸ hp c List.mem_cons_self
    · exact h.2 d hd

/-- R300: the scalar core leaves all vector state alone and stores to plain memory only. -/
theorem inv_scalarCoreStep {s : State} (h : Inv s) : Inv s.scalarCoreStep := by
  obtain ⟨hc, hv, hf, hvl, ha, hm, hl⟩ := h
  refine ⟨hc, hv, hf, hvl, ha, ?_, hl⟩
  exact memoryFits_foldl_write (fun c hmem => (List.mem_filter.mp hmem).2) hm

/-- Settles O59: a step is an instruction, whose effect keeps every part of the invariant, or a step of
the scalar core. -/
theorem invariantKept : Obligations.InvariantKept := by
  intro s t h hstep
  obtain ⟨w, -, ⟨i, -, hexec⟩ | ⟨-, rfl⟩⟩ := (step_next s t).mp hstep
  · exact (exec_effect i s t hexec).inv h
  · exact inv_scalarCoreStep h

end Sys2Proof.Machine
end

section
/-! What an instruction leaves alone (R22, R30, R32, R38, R41, R60), read off the effects it can have. -/

namespace Sys2Proof.Machine

section
variable {i : Instr} {s t : State}

theorem Effect.acc_eq (e : Effect i s t) (h : usesAccumulators i = false) : t.acc = s.acc := by
  cases e with
  | accumulate _ uses => exact absurd uses (by simp [h])
  | copyZero _ _ uses => exact absurd uses (by simp [h])
  | _ => rfl

theorem Effect.lmem_eq (e : Effect i s t) (h : storesToLocalMemory i = false) :
    t.lmem = s.lmem := by
  cases e with
  | localStore _ stores => exact absurd stores (by simp [h])
  | _ => rfl

theorem Effect.mem_eq (e : Effect i s t) (h : storesToMemory i = false) : t.mem = s.mem := by
  cases e with
  | store _ stores => exact absurd stores (by simp [h])
  | storeDraw _ stores => exact absurd stores (by simp [h])
  | storeIncrement _ _ _ stores => exact absurd stores (by simp [h])
  | flagStore _ _ _ stores => exact absurd stores (by simp [h])
  | _ => rfl

theorem Effect.xreg_eq (e : Effect i s t) {r : SReg} (h : scalarDestination i ≠ some r) :
    t.xreg r = s.xreg r := by
  have other {rs : SReg} {a : Word} (dest : scalarDestination i = some rs) :
      (s.setX rs a).xreg r = s.xreg r := by
    rw [State.xreg_setX, if_neg]
    rintro ⟨-, rfl⟩
    exact h dest
  cases e with
  | extract rs a dest => exact other dest
  | scalar rs a dest => exact other dest
  | _ => rfl

theorem Effect.vl_eq (e : Effect i s t) (h : setsVl i = false) : t.vl = s.vl := by
  cases e with
  | copy _ _ _ _ sets => exact absurd sets (by simp [h])
  | copyZero _ _ _ _ sets => exact absurd sets (by simp [h])
  | control vc a sets => exact s.setCreg_vl_of_ne (by simpa [h] using sets) a
  | _ => rfl

theorem Effect.velem_beyond_eq (e : Effect i s t) (h : reachesBeyondVl i = false) (r : VReg) {k : Nat}
    (hvl : s.vlen ≤ k) (hk : k < s.cfg.mvl) : t.velem r k = s.velem r k := by
  cases e with
  | vector vd g _ beyond => exact s.velem_setV_of_kept hk (beyond h k hvl) r
  | load vd g _ beyond => exact s.velem_setV_of_kept hk (beyond k hvl) r
  | loadIncrement vd g _ _ _ beyond => exact s.velem_setV_of_kept hk (beyond k hvl) r
  | copy _ _ _ beyond => exact absurd beyond (by simp [h])
  | copyZero _ _ _ beyond => exact absurd beyond (by simp [h])
  | _ => rfl

end

/-- Settles O57: of each part of the state, only the effects of the named instructions change it. -/
theorem onlyTheirInstructionsWrite : Obligations.OnlyTheirInstructionsWrite := by
  intro i s t hexec
  have e := exec_effect i s t hexec
  exact ⟨e.acc_eq, e.lmem_eq, e.mem_eq, fun _ => e.xreg_eq, e.vl_eq,
    fun h r _ => e.velem_beyond_eq h r, e.cfg_eq, e.program_eq, e.startPC_eq⟩

end Sys2Proof.Machine
end

section
/-! Sums over the accumulators (R38 to R40): the partial results and the products that a
multiply-accumulate adds, each counted once. -/

namespace Sys2Proof.Machine

/-! ### `vccacc` -/

/-- The chains split the accumulators: summing chain by chain counts each accumulator once. -/
theorem sum_chains (c : Config) (hm : c.macl ≠ 0) (f : Nat → Int) :
    (∑ j ∈ Finset.range (partialCount c), ∑ k ∈ Finset.range (accCount c),
      if accChain c k = j then f k else 0) = ∑ k ∈ Finset.range (accCount c), f k := by
  rw [Finset.sum_comm]
  refine Finset.sum_congr rfl fun k hk => ?_
  have hchain := accChain_lt c k hm (Finset.mem_range.mp hk)
  rw [Finset.sum_ite_eq, if_pos (Finset.mem_range.mpr hchain)]

/-- R165: the element that a chain's partial result becomes is the chain's sum modulo `2^W`. -/
theorem chainLow_modEq (s : State) (hw : s.cfg.w ≤ s.cfg.accW) (j : Nat) :
    ((s.chainLow j).toNat : Int) ≡ ∑ k ∈ Finset.range (accCount s.cfg),
      (if accChain s.cfg k = j then (s.accValue k : Int) else 0) [ZMOD 2 ^ s.cfg.w] := by
  rw [State.chainLow, elem_toNat, BitVec.toNat_ofNat]
  push_cast
  rw [chainSum_cast]
  exact (Int.mod_modEq _ _).trans ((Int.mod_modEq _ _).of_dvd (pow_dvd_pow 2 hw))

/-- The element `j` of `vD` after `vccacc`, for the first `P` elements. -/
theorem velem_vccacc {s t : State} {vd : VReg} (h : exec (.vccacc vd) s = .next t) (hd : vd ≠ 0)
    {j : Nat} (hj : j < partialCount s.cfg) (hmvl : j < s.cfg.mvl) :
    t.velem vd j = s.chainLow j := by
  obtain ⟨-, h⟩ := (require_next t).mp h
  obtain rfl := (finish_next _ t).mp h
  exact (State.velem_setV_self s hd hmvl _).trans (if_pos hj)

/-- Settles O14: modulo `2^W` every element is the sum of its chain, and the chains split the
accumulators. -/
theorem partialSumsKeepTheTotal : Obligations.PartialSumsKeepTheTotal := by
  intro s t vd hv hd h
  have hmacl : s.cfg.macl ≠ 0 := macAvailable_macl_ne_zero ((require_next t).mp h).1
  have total := calc (∑ j ∈ Finset.range (partialCount s.cfg), ((t.velem vd j).toNat : Int))
    _ = ∑ j ∈ Finset.range (partialCount s.cfg), ((s.chainLow j).toNat : Int) := by
      refine Finset.sum_congr rfl fun j hj => ?_
      have hj := Finset.mem_range.mp hj
      rw [velem_vccacc h hd hj (hj.trans_le (validMac_partialCount_le hv))]
    _ ≡ ∑ j ∈ Finset.range (partialCount s.cfg), ∑ k ∈ Finset.range (accCount s.cfg),
        (if accChain s.cfg k = j then (s.accValue k : Int) else 0) [ZMOD 2 ^ s.cfg.w] :=
      Int.ModEq.sum fun j _ => chainLow_modEq s (validMac_w_le_accW hv) j
    _ = ∑ k ∈ Finset.range (accCount s.cfg), (s.accValue k : Int) := sum_chains s.cfg hmacl _
  exact Int.emod_eq_zero_of_dvd total.symm.dvd

/-! ### `vcczacc` and then `vmac` -/

/-- The products of the active VPs, summed accumulator by accumulator, are counted once each. -/
theorem sum_products (s : State) (m : MaskSel) (hv : validMac s.cfg = true)
    (ha : macAvailable s.cfg = true) (f : Nat → Int) :
    (∑ k ∈ Finset.range (accCount s.cfg), ((s.feeders m k).map f).sum) =
      ∑ i ∈ Finset.range s.cfg.mvl, if s.active m i = true then f i else 0 := by
  simp only [sum_feeders]
  rw [Finset.sum_comm]
  refine Finset.sum_congr rfl fun i hi => ?_
  have hacc := accOf_lt_accCount hv ha (Finset.mem_range.mp hi)
  by_cases hact : s.active m i = true
  · simp only [hact, true_and, if_true, Finset.sum_ite_eq]
    rw [if_pos (Finset.mem_range.mpr hacc)]
  · simp [hact]

theorem accValue_zeroAccumulators (s : State) (k : Nat) : s.zeroAccumulators.accValue k = 0 := by
  simp only [State.accValue, State.zeroAccumulators, List.getD_eq_getElem?_getD,
    List.getElem?_replicate]
  split_ifs <;> rfl

theorem accValue_of_acc_eq {s : State} {g : Nat → Accumulator} {n k : Nat}
    (h : s.acc = (List.range n).map g) (hk : k < n) : s.accValue k = (g k).value := by
  rw [State.accValue, h, getD_map_range, if_pos hk]

/-- R166: what `vcczacc` leaves of the parameters and in the accumulators. -/
theorem vcczacc_clears {s t : State} {vd : VReg} (h : exec (.vcczacc vd) s = .next t) :
    t.cfg = s.cfg ∧ ∀ k, t.accValue k = 0 := by
  obtain ⟨-, h⟩ := (require_next t).mp h
  obtain rfl := (finish_next _ t).mp h
  exact ⟨rfl, accValue_zeroAccumulators (s.copyPartials vd _)⟩

/-- R163: an accumulator after `vmac.vv`. -/
theorem accValue_vmacVV {t u : State} {m : MaskSel} {va vb : VReg}
    (h : exec (.vmacVV m va vb) t = .next u) {k : Nat} (hk : k < accCount t.cfg) :
    (u.accValue k : Int) ≡ t.accValue k + ((t.feeders m k).map fun i =>
      t.signedAt (.vec va) i * t.signedAt (.vec vb) i).sum [ZMOD 2 ^ t.cfg.accW] := by
  obtain ⟨-, rfl⟩ := (multiplyAccumulate_next t u ..).mp h
  rw [accValue_of_acc_eq rfl hk, wrapAcc_cast]
  exact Int.mod_modEq _ _

/-- Settles O15: each cleared accumulator takes the products of its feeders, and every active VP feeds
one accumulator. -/
theorem reductionFromCleared : Obligations.ReductionFromCleared := by
  intro s t u m vd va vb hv hz hmac
  obtain ⟨hcfg, hzero⟩ := vcczacc_clears hz
  have ha : macAvailable t.cfg = true := ((multiplyAccumulate_next t u ..).mp hmac).1
  rw [← hcfg] at hv ⊢
  have total := calc (∑ k ∈ Finset.range (accCount t.cfg), (u.accValue k : Int))
    _ ≡ ∑ k ∈ Finset.range (accCount t.cfg), ((t.feeders m k).map fun i =>
        t.signedAt (.vec va) i * t.signedAt (.vec vb) i).sum [ZMOD 2 ^ t.cfg.accW] :=
      Int.ModEq.sum fun k hk => by
        simpa [hzero] using accValue_vmacVV hmac (Finset.mem_range.mp hk)
    _ = ∑ i ∈ Finset.range t.cfg.mvl, if t.active m i = true then
        t.signedAt (.vec va) i * t.signedAt (.vec vb) i else 0 := sum_products t m hv ha _
  exact Int.emod_eq_zero_of_dvd total.symm.dvd

end Sys2Proof.Machine
end

section
/-! The step where an instruction stands (R44, R74, R125): decoding the word of an instruction gives the
instruction back, form by form, and the step runs it. -/

namespace Sys2Proof

/-- A packed word decodes to an instruction: its codes select the row of the table (`table`), and the
reader of that row gives the operands back (`read`). -/
theorem decode_packed {c : Config} {w : Word} {op opx func : Nat} {r : Decoded} {i : Instr}
    (table : hasCodes w.toNat op opx func → decodeNat c w.toNat = r)
    (codes : op < 64 → opx < 2 → func < 64 → hasCodes w.toNat op opx func)
    (read : op < 64 → opx < 2 → func < 64 → r = .instr i)
    (bounds : op < 64 ∧ opx < 2 ∧ func < 64 := by decide) :
    (some w).map (decodeWord c) = some (.instr i) := by
  obtain ⟨hop, hopx, hfunc⟩ := bounds
  exact congrArg some ((table (codes hop hopx hfunc)).trans (read hop hopx hfunc))

/-- Decoding undoes encoding under the default layout (R93 to R108, R125), by the opcode, the `OPX` bit
and the operand form of the instruction. -/
theorem decodeWord_encode {c : Config} (hl : c.layout = FieldLayout.r93) (i : Instr)
    (hwf : i.wellFormed c = true) :
    (encode FieldLayout.r93 i).map (decodeWord c) = some (.instr i) := by
  cases i with
  | vaddVV | vsubVV | vandVV | vorVV | vxorVV | vadduVV | vsubuVV | vabsdiffVV | vsraVV | vsllVV
  | vsrlVV | vrotVV | vdivVV | vmergeVV | vdivuVV | vmaxVV | vminVV | vmulhiVV | vmulloVV
  | vmaxuVV | vminuVV | vmulhiuVV | vmullouVV =>
    refine decode_packed (decodeNat_vectorRegister hl) (packVRvvv_codes · · · ..) fun hop hopx hfunc => ?_
    simp only [decodeVectorRegister, hl, readVRvvv_pack hop hopx hfunc]
  | vmacVV | vmacuVV =>
    refine decode_packed (decodeNat_vectorRegister hl) (packVRab_codes · · · ..) fun hop hopx hfunc => ?_
    simp only [decodeVectorRegister, hl, readVRab_pack hop hopx hfunc]
  | vcmpeqVV | vcmpltVV | vcmpleVV | vcmpneqVV | vcmpltuVV | vcmpleuVV =>
    refine decode_packed (decodeNat_vectorRegister hl) (packVRfvv_codes · · · ..) fun hop hopx hfunc => ?_
    simp only [decodeVectorRegister, hl, readVRfvv_pack hop hopx hfunc]
  | vextVV | vinsVV | vupshift =>
    refine decode_packed (decodeNat_vectorRegister hl) (packVRda_codes · · · ..) fun hop hopx hfunc => ?_
    simp only [decodeVectorRegister, hl, readVRda_pack hop hopx hfunc]
  | vccacc | vcczacc =>
    refine decode_packed (decodeNat_vectorRegister hl) (packVRd_codes · · · ..) fun hop hopx hfunc => ?_
    simp only [decodeVectorRegister, hl, readVRd_pack hop hopx hfunc]
  | vcomp | vexpand | vabsVV =>
    refine decode_packed (decodeNat_vectorRegister hl) (packVRmda_codes · · · ..) fun hop hopx hfunc => ?_
    simp only [decodeVectorRegister, hl, readVRmda_pack hop hopx hfunc]
  | vaddVS | vsubVS | vandVS | vorVS | vxorVS | vadduVS | vsubuVS | vabsdiffVS | vsraVS | vsllVS
  | vsrlVS | vrotVS | vdivVS | vmergeVS | vdivuVS | vmaxVS | vminVS | vmulhiVS | vmulloVS
  | vmaxuVS | vminuVS | vmulhiuVS | vmullouVS | vsraSV | vsubSV | vsllSV | vsrlSV | vrotSV
  | vdivSV | vmergeSV | vsubuSV | vdivuSV =>
    refine decode_packed (decodeNat_scalarVector hl) (packSSvs_codes · · · ..) fun hop hopx hfunc => ?_
    simp only [decodeScalarVector, hl, readSSvs_pack hop hopx hfunc]
  | vmacVS | vmacuVS =>
    refine decode_packed (decodeNat_scalarVector hl) (packSSa_codes · · · ..) fun hop hopx hfunc => ?_
    simp only [decodeScalarVector, hl, readSSa_pack hop hopx hfunc]
  | vcmpeqVS | vcmpltVS | vcmpleVS | vcmpneqVS | vcmpltuVS | vcmpleuVS | vcmpltSV | vcmpleSV
  | vcmpltuSV | vcmpleuSV =>
    refine decode_packed (decodeNat_scalarVector hl) (packSSfvs_codes · · · ..) fun hop hopx hfunc => ?_
    simp only [decodeScalarVector, hl, readSSfvs_pack hop hopx hfunc]
  | vextVS | vextuVS =>
    refine decode_packed (decodeNat_scalarVector hl) (packSDv_codes · · · ..) fun hop hopx hfunc => ?_
    simp only [decodeScalarVector, hl, readSDv_pack hop hopx hfunc]
  | vinsVS =>
    refine decode_packed (decodeNat_scalarVector hl) (packSSd_codes · · · ..) fun hop hopx hfunc => ?_
    simp only [decodeScalarVector, hl, readSSd_pack hop hopx hfunc]
  | vsaddVV | vssubVV | vxmulhiVV | vxmulloVV | vsadduVV | vssubuVV | vxmulhiuVV | vxmullouVV =>
    refine decode_packed (decodeNat_fixedPoint hl) (packVRvvv_codes · · · ..) fun hop hopx hfunc => ?_
    simp only [decodeFixedPoint, hl, readVRvvv_pack hop hopx hfunc]
  | vsrr | vsls | vsrru | vslsu =>
    refine decode_packed (decodeNat_fixedPoint hl) (packVRmda_codes · · · ..) fun hop hopx hfunc => ?_
    simp only [decodeFixedPoint, hl, readVRmda_pack hop hopx hfunc]
  | vsat | vsatu | vsatsu =>
    obtain rfl := eq_of_beq hwf
    refine decode_packed (decodeNat_fixedPoint hl) (packVRmda_codes · · · ..) fun hop hopx hfunc => ?_
    simp only [decodeFixedPoint, hl, readVRmda_pack hop hopx hfunc]
  | vxccacc | vxcczacc =>
    refine decode_packed (decodeNat_fixedPoint hl) (packVRd_codes · · · ..) fun hop hopx hfunc => ?_
    simp only [decodeFixedPoint, hl, readVRd_pack hop hopx hfunc]
  | vsaddVS | vssubVS | vxmulhiVS | vxmulloVS | vsadduVS | vssubuVS | vxmulhiuVS | vxmullouVS
  | vssubSV | vssubuSV =>
    refine decode_packed (decodeNat_fixedPoint hl) (packSSvs_codes · · · ..) fun hop hopx hfunc => ?_
    simp only [decodeFixedPoint, hl, readSSvs_pack hop hopx hfunc]
  | vfclr | vfset =>
    refine decode_packed (decodeNat_flagMisc hl) (packVRf_codes · · · ..) fun hop hopx hfunc => ?_
    simp only [decodeFlagMisc, hl, readVRf_pack hop hopx hfunc]
  | vfandVV | vfnorVV | vforVV | vfxorVV =>
    refine decode_packed (decodeNat_flagMisc hl) (packVRfff_codes · · · ..) fun hop hopx hfunc => ?_
    simp only [decodeFlagMisc, hl, readVRfff_pack hop hopx hfunc]
  | vfff1 | vffl1 =>
    refine decode_packed (decodeNat_flagMisc hl) (packSDf_codes · · · ..) fun hop hopx hfunc => ?_
    simp only [decodeFlagMisc, hl, readSDf_pack hop hopx hfunc]
  | vfsetof | vfsetbf | vfsetif =>
    refine decode_packed (decodeNat_flagMisc hl) (packVRff_codes · · · ..) fun hop hopx hfunc => ?_
    simp only [decodeFlagMisc, hl, readVRff_pack hop hopx hfunc]
  | vfinsVS =>
    refine decode_packed (decodeNat_flagMisc hl) (packSSf_codes · · · ..) fun hop hopx hfunc => ?_
    simp only [decodeFlagMisc, hl, readSSf_pack hop hopx hfunc]
  | vfandVS | vfnorVS | vforVS | vfxorVS =>
    refine decode_packed (decodeNat_flagMisc hl) (packSSff_codes · · · ..) fun hop hopx hfunc => ?_
    simp only [decodeFlagMisc, hl, readSSff_pack hop hopx hfunc]
  | vmstc =>
    refine decode_packed (decodeNat_flagMisc hl) (packSSc_codes · · · ..) fun hop hopx hfunc => ?_
    simp only [decodeFlagMisc, hl, readSSc_pack hop hopx hfunc]
  | vmcts =>
    refine decode_packed (decodeNat_flagMisc hl) (packSDc_codes · · · ..) fun hop hopx hfunc => ?_
    simp only [decodeFlagMisc, hl, readSDc_pack hop hopx hfunc]
  | vldB | vstB | vlduB | vldH | vstH | vlduH | vldW | vstW =>
    refine decode_packed (decodeNat_memory hl) (packVM_codes · · · ..) fun hop hopx hfunc => ?_
    simp only [decodeMemory, hl, readVM_pack hop hopx hfunc]
  | vldsB | vstsB | vldsuB | vldsH | vstsH | vldsuH | vldsW | vstsW =>
    refine decode_packed (decodeNat_memory hl) (packVMS_codes · · · ..) fun hop hopx hfunc => ?_
    simp only [decodeMemory, hl, readVMS_pack hop hopx hfunc]
  | vldxB | vstxuB | vstxB | vldxuB | vldxH | vstxuH | vstxH | vldxuH | vldxW | vstxuW | vstxW =>
    refine decode_packed (decodeNat_memory hl) (packVMX_codes · · · ..) fun hop hopx hfunc => ?_
    simp only [decodeMemory, hl, readVMX_pack hop hopx hfunc]
  | vldlVV =>
    refine decode_packed (decodeNat_memory hl) (packVRmda_codes · · · ..) fun hop hopx hfunc => ?_
    simp only [decodeMemory, hl, readVRmda_pack hop hopx hfunc]
  | vstlVV =>
    refine decode_packed (decodeNat_memory hl) (packVRab_codes · · · ..) fun hop hopx hfunc => ?_
    simp only [decodeMemory, hl, readVRab_pack hop hopx hfunc]
  | vfld | vfst =>
    refine decode_packed (decodeNat_memory hl) (packVMf_codes · · · ..) fun hop hopx hfunc => ?_
    simp only [decodeMemory, hl, readVMf_pack hop hopx hfunc]
  | vstlVS =>
    refine decode_packed (decodeNat_memoryScalar hl) (packSSa_codes · · · ..) fun hop hopx hfunc => ?_
    simp only [decodeMemoryScalar, hl, readSSa_pack hop hopx hfunc]
  | vfpop => cases hwf

end Sys2Proof

namespace Sys2Proof.Machine

/-- R320, R324: the word at the `pc` is what the step fetches. -/
theorem fetch_of_standsAt {s : State} {w : Word} (h : standsAt s w) : s.fetch = .word w := by
  obtain ⟨n, hpc, hw⟩ := h
  have hindex : s.programIndex = some n := by
    rw [State.programIndex, if_pos (by omega)]
    congr 1
    omega
  simp only [State.fetch, hindex, hw]

theorem step_of_decodes {s : State} {w : Word} {i : Instr} (hw : standsAt s w)
    (hd : decodeWord s.cfg w = .instr i) : step s = exec i s := by
  simp only [step, fetch_of_standsAt hw, hd]

/-- Settles O54: the step decodes the word it fetches, and the word of a well-formed instruction decodes
to it. -/
theorem stepRunsDecodedInstruction : Obligations.StepRunsDecodedInstruction := by
  intro s w i hw
  refine ⟨step_of_decodes hw, fun hl hwf he => step_of_decodes hw ?_⟩
  have hd := decodeWord_encode hl i hwf
  rw [hl] at he
  rw [he] at hd
  exact Option.some.inj hd

end Sys2Proof.Machine
end

section
/-! The state after reset (R46, R320), and the check of flag register numbers (R26). -/

namespace Sys2Proof.Machine

/-! ### Reset -/

section
variable (c : Config) (start : Word)

theorem vectorsFit_resetOf : vectorsFit (State.resetOf c start) := by
  intro r
  have hreg : (State.resetOf c start).v.get r = List.replicate c.mvl 0 :=
    Vector.getElem_replicate ..
  rw [hreg]
  refine ⟨List.length_replicate .., fun e he => ?_⟩
  rw [List.eq_of_mem_replicate he]
  exact Nat.two_pow_pos _

theorem flagsFit_resetOf : flagsFit (State.resetOf c start) := by
  intro q
  have hreg : (State.resetOf c start).f.get q =
      if 31 = q then List.replicate c.mvl true else List.replicate c.mvl false := by
    refine (regSet_get _ 31 q _).trans ?_
    congr 1
    exact Vector.getElem_replicate ..
  rw [hreg]
  split_ifs <;> exact List.length_replicate ..

theorem accumulatorsFit_resetOf : accumulatorsFit (State.resetOf c start) := by
  refine ⟨List.length_replicate .., fun a ha => ?_⟩
  rw [List.eq_of_mem_replicate ha]
  exact Nat.two_pow_pos _

theorem inv_resetOf (hc : validConfig c = true) : Inv (State.resetOf c start) :=
  ⟨hc, vectorsFit_resetOf c start, flagsFit_resetOf c start, Nat.zero_le _,
    accumulatorsFit_resetOf c start, ⟨rfl, nofun⟩, ⟨rfl, nofun⟩⟩

end

/-- Settles O60: the shapes of the register files after reset, and the accessors that hold the hardwired
and the static values. -/
theorem resetState : Obligations.ResetState := by
  refine ⟨inv_resetOf _ _ (by decide), rfl, fun c start hc => ?_⟩
  exact ⟨inv_resetOf c start hc, rfl, rfl, State.velem_zero _, State.felem_vfzero _,
    State.felem_vfone _, rfl, rfl, rfl, rfl, rfl⟩

/-! ### Unused flag registers -/

theorem reservedFlag_iff (f : FReg) : reservedFlag f = true ↔ 18 ≤ f.val ∧ f.val ≤ 29 := by
  simp [reservedFlag]

/-- R26: an instruction that checks the flag registers it names is refused for an unused one. -/
theorem requireFlags_refused {fs : List FReg} (k : Result) (h : ∃ f ∈ fs, reservedFlag f = true) :
    requireFlags fs k = .refused .reservedFlagRegister := by
  obtain ⟨f, hf, hr⟩ := h
  have hcheck : (fs.all fun q => !reservedFlag q) = false :=
    List.all_eq_false.mpr ⟨f, hf, by simp [hr]⟩
  rw [requireFlags, hcheck]
  rfl

/-- Every instruction that names flag registers checks them before anything else (R26). -/
theorem flagForms_requireFlags (s : State) (m : MaskSel) (va vb : VReg) (rs : SReg) (fd fa fb : FReg)
    (ba : VBase) (vi : VInc) :
    ∀ p ∈ flagForms m va vb rs fd fa fb ba vi, ∃ k, exec p.1 s = requireFlags p.2 k := by
  simp only [flagForms, List.forall_mem_cons]
  exact ⟨
    -- the compares
    ⟨_, rfl⟩, ⟨_, rfl⟩, ⟨_, rfl⟩, ⟨_, rfl⟩, ⟨_, rfl⟩, ⟨_, rfl⟩, ⟨_, rfl⟩, ⟨_, rfl⟩,
    ⟨_, rfl⟩, ⟨_, rfl⟩, ⟨_, rfl⟩, ⟨_, rfl⟩, ⟨_, rfl⟩, ⟨_, rfl⟩, ⟨_, rfl⟩, ⟨_, rfl⟩,
    -- flag logic
    ⟨_, rfl⟩, ⟨_, rfl⟩, ⟨_, rfl⟩, ⟨_, rfl⟩, ⟨_, rfl⟩, ⟨_, rfl⟩, ⟨_, rfl⟩, ⟨_, rfl⟩,
    -- constants, `vfins`, counts and searches
    ⟨_, rfl⟩, ⟨_, rfl⟩, ⟨_, rfl⟩, ⟨_, rfl⟩, ⟨_, rfl⟩, ⟨_, rfl⟩,
    -- scans, `vfld`, `vfst`
    ⟨_, rfl⟩, ⟨_, rfl⟩, ⟨_, rfl⟩, ⟨_, rfl⟩, ⟨_, rfl⟩,
    List.forall_mem_nil _⟩

/-- Settles O48: each of the instructions checks exactly the registers it names. -/
theorem unusedFlagRegistersRefuse : Obligations.UnusedFlagRegistersRefuse := by
  intro s m va vb rs fd fa fb ba vi p hp ⟨f, hf, hr⟩
  obtain ⟨k, hk⟩ := flagForms_requireFlags s m va vb rs fd fa fb ba vi p hp
  rw [hk]
  exact requireFlags_refused k ⟨f, hf, (reservedFlag_iff f).mpr hr⟩

end Sys2Proof.Machine
end

section
/-! The program counter (R44, R282): every instruction that completes moves it to the next word, and none
reads it. Two states that differ in the `pc` alone give results that differ in the `pc` alone. -/

namespace Sys2Proof.Machine

/-- What an operation answers from a state (`res`) and from that state with the `pc` at `p` (`res'`):
where the first is a next state, the second is that state with the `pc` at the word after `p`. -/
structure SameButPc (p : Word) (res res' : Result) : Prop where
  next_eq : ∀ t, res = .next t → res' = .next { t with pc := p + 4 }

section
variable {p : Word}

/-! ### The ends of an instruction -/

theorem sameButPc_advance (u : State) :
    SameButPc p (.next u.advance) (.next (State.advance { u with pc := p })) := by
  refine ⟨fun t ht => ?_⟩
  obtain rfl := next_inj.mp ht
  rfl

theorem sameButPc_finish (u : State) : SameButPc p u.finish (State.finish { u with pc := p }) :=
  sameButPc_advance u.flagSideEffect

theorem sameButPc_refused (r : Refusal) (res' : Result) : SameButPc p (.refused r) res' :=
  ⟨fun _ ht => by cases ht⟩

/-! ### The checks -/

section
variable {res res' : Result}

theorem SameButPc.require (h : SameButPc p res res') {ok : Bool} {r : Refusal} :
    SameButPc p (require ok r res) (require ok r res') := by
  refine ⟨fun t ht => ?_⟩
  obtain ⟨hok, ht⟩ := (require_next t).mp ht
  exact (require_next _).mpr ⟨hok, h.next_eq t ht⟩

theorem SameButPc.unlessFault (h : SameButPc p res res') {f : Option Fault} :
    SameButPc p (unlessFault f res) (unlessFault f res') := by
  refine ⟨fun t ht => ?_⟩
  obtain ⟨hf, ht⟩ := (unlessFault_next t).mp ht
  exact (unlessFault_next _).mpr ⟨hf, h.next_eq t ht⟩

end

/-! ### The shared operations -/

section
variable (s : State) (m : MaskSel)

theorem elementwise_sameButPc (vd : VReg) (a b : Source) (op : ElemOp) :
    SameButPc p (s.elementwise m vd a b op) (State.elementwise { s with pc := p } m vd a b op) :=
  sameButPc_finish (s.setV vd _)

theorem merge_sameButPc (vd : VReg) (a b : Source) :
    SameButPc p (s.merge m vd a b) (State.merge { s with pc := p } m vd a b) :=
  sameButPc_finish (s.setV vd _)

theorem compare_sameButPc (fd : FReg) (a b : Source) (op : CmpOp) :
    SameButPc p (s.compare m fd a b op) (State.compare { s with pc := p } m fd a b op) :=
  (sameButPc_advance (s.flagSideEffect.setF fd _)).require

theorem multiplyAccumulate_sameButPc (signed : Bool) (a b : Source) :
    SameButPc p (s.multiplyAccumulate signed m a b)
      (State.multiplyAccumulate { s with pc := p } signed m a b) :=
  (sameButPc_finish { s with acc := _ }).require

theorem load_sameButPc (wd : Width) (signed : Bool) (vd : VReg) (vb : VBase) (addr : Nat → Int)
    {after : State → State} (hafter : ∀ u : State, after { u with pc := p } = { after u with pc := p }) :
    SameButPc p (s.load wd signed m vd vb addr after)
      (State.load { s with pc := p } wd signed m vd vb addr after) := by
  have hend := sameButPc_advance (p := p) (after (s.setV vd fun i =>
    if s.active m i then extendElem s.cfg signed wd (s.mem.readLE (addr i).toNat wd.bytes)
    else s.velem vd i))
  rw [← hafter] at hend
  exact hend.unlessFault.require

theorem store_sameButPc (wd : Width) (va : VReg) (vb : VBase) (addr : Nat → Int) (order : List Nat)
    {after : State → State} (hafter : ∀ u : State, after { u with pc := p } = { after u with pc := p }) :
    SameButPc p (s.store wd m va vb addr order after)
      (State.store { s with pc := p } wd m va vb addr order after) := by
  have hend := sameButPc_advance (p := p) (after { s with mem := s.storeElems wd va addr order })
  rw [← hafter] at hend
  exact hend.unlessFault.require.require

theorem localStore_sameButPc (va : VReg) (b : Source) :
    SameButPc p (s.localStore m va b) (State.localStore { s with pc := p } m va b) :=
  (sameButPc_advance { s with lmem := _ }).unlessFault.require.require

theorem transfer_sameButPc (vd va : VReg) {res res' : Result} (h : SameButPc p res res') :
    SameButPc p (s.transfer vd va res) (State.transfer { s with pc := p } vd va res') :=
  h.require.require.require

theorem flagLoop_sameButPc (fd : FReg) (named : List FReg) (g : Nat → Bool) :
    SameButPc p (s.flagLoop fd named g) (State.flagLoop { s with pc := p } fd named g) :=
  (sameButPc_advance (s.setF fd _)).require

theorem flagScan_sameButPc (fd fa : FReg) (g : Nat → Nat → Bool) :
    SameButPc p (s.flagScan fd fa g) (State.flagScan { s with pc := p } fd fa g) :=
  (sameButPc_advance (s.setF fd _).useDraws).require

theorem flagSearch_sameButPc (rs : SReg) (fa : FReg) (n : Nat) :
    SameButPc p (s.flagSearch rs fa n) (State.flagSearch { s with pc := p } rs fa n) :=
  (sameButPc_advance (s.setX rs _)).require

end

theorem vmcts_sameButPc (s : State) (rs : SReg) (vc : CReg) :
    SameButPc p (exec (.vmcts rs vc) s) (exec (.vmcts rs vc) { s with pc := p }) := by
  show SameButPc p (execVmcts rs vc s) (execVmcts rs vc { s with pc := p })
  have hread : State.creg { s with pc := p } vc = s.creg vc := rfl
  unfold execVmcts
  rw [hread]
  cases s.creg vc with
  | none => exact sameButPc_refused ..
  | some a => exact sameButPc_advance (s.setX rs a)

/-! ### Every instruction -/

/-- No instruction reads the `pc`, by the shared operation it runs and the checks before it. -/
theorem exec_sameButPc (i : Instr) (s : State) :
    SameButPc p (exec i s) (exec i { s with pc := p }) := by
  cases i with
  | vaddVV | vsubVV | vandVV | vorVV | vxorVV | vadduVV | vsubuVV | vabsdiffVV | vsraVV | vsllVV
  | vsrlVV | vrotVV | vdivVV | vdivuVV | vmaxVV | vminVV | vmaxuVV | vminuVV | vabsVV
  | vaddVS | vsubVS | vandVS | vorVS | vxorVS | vadduVS | vsubuVS | vabsdiffVS | vsraVS | vsllVS
  | vsrlVS | vrotVS | vdivVS | vdivuVS | vmaxVS | vminVS | vmaxuVS | vminuVS
  | vsraSV | vsubSV | vsllSV | vsrlSV | vrotSV | vdivSV | vsubuSV | vdivuSV =>
    exact elementwise_sameButPc ..
  | vmulhiVV | vmulloVV | vmulhiuVV | vmullouVV | vmulhiVS | vmulloVS | vmulhiuVS | vmullouVS
  | vsaddVV | vssubVV | vsrr | vsls | vsadduVV | vssubuVV | vsrru | vslsu
  | vsaddVS | vssubVS | vsadduVS | vssubuVS | vssubSV | vssubuSV =>
    exact (elementwise_sameButPc ..).require
  | vsat | vsatu | vsatsu | vxmulhiVV | vxmulloVV | vxmulhiuVV | vxmullouVV
  | vxmulhiVS | vxmulloVS | vxmulhiuVS | vxmullouVS =>
    exact (elementwise_sameButPc ..).require.require
  | vcmpeqVV | vcmpltVV | vcmpleVV | vcmpneqVV | vcmpltuVV | vcmpleuVV
  | vcmpeqVS | vcmpltVS | vcmpleVS | vcmpneqVS | vcmpltuVS | vcmpleuVS
  | vcmpltSV | vcmpleSV | vcmpltuSV | vcmpleuSV =>
    exact compare_sameButPc ..
  | vmacVV | vmacuVV | vmacVS | vmacuVS => exact multiplyAccumulate_sameButPc ..
  | vccacc vd => exact (sameButPc_finish (s.copyPartials vd _)).require
  | vcczacc vd => exact (sameButPc_finish (s.copyPartials vd _).zeroAccumulators).require
  | vxccacc vd => exact (sameButPc_finish (s.copyPartials vd _)).require.require
  | vxcczacc vd => exact (sameButPc_finish (s.copyPartials vd _).zeroAccumulators).require.require
  | vmergeVV | vmergeVS | vmergeSV => exact merge_sameButPc ..
  | vextVV vd va | vinsVV vd va =>
    exact transfer_sameButPc s vd va (sameButPc_finish (s.setV vd _))
  | vcomp m vd | vexpand m vd => exact (sameButPc_finish (s.setV vd _)).require
  | vupshift vd => exact (sameButPc_finish (s.setV vd _)).require
  | vinsVS vd => exact sameButPc_finish (s.setV vd _)
  | vextVS rs | vextuVS rs => exact sameButPc_finish (s.setX rs _)
  | vfclr | vfset | vfandVV | vfnorVV | vforVV | vfxorVV | vfandVS | vfnorVS | vforVS | vfxorVS =>
    exact flagLoop_sameButPc ..
  | vfff1 | vffl1 | vfpop => exact flagSearch_sameButPc ..
  | vfsetof fd fa => exact flagScan_sameButPc s fd fa fun q k => decide (k = q)
  | vfsetbf fd fa => exact flagScan_sameButPc s fd fa fun q k => decide (k < q)
  | vfsetif fd fa => exact flagScan_sameButPc s fd fa fun q k => decide (k ≤ q)
  | vfinsVS fd => exact (sameButPc_advance (s.setF fd _)).require
  | vmstc vc => exact (sameButPc_advance (s.setCreg vc _)).require.require.require
  | vmcts rs vc => exact vmcts_sameButPc s rs vc
  | vldB m vd vb vi | vlduB m vd vb vi | vldH m vd vb vi | vlduH m vd vb vi | vldW m vd vb vi
  | vldsB m vd vb vs vi | vldsuB m vd vb vs vi | vldsH m vd vb vs vi | vldsuH m vd vb vs vi
  | vldsW m vd vb vs vi =>
    exact load_sameButPc s m _ _ vd vb _ (after := (·.autoIncrement vb vi)) fun _ => rfl
  | vldxB m vd vo vb | vldxuB m vd vo vb | vldxH m vd vo vb | vldxuH m vd vo vb
  | vldxW m vd vo vb =>
    exact load_sameButPc s m _ _ vd vb _ (after := id) fun _ => rfl
  | vstB m va vb vi | vstH m va vb vi | vstW m va vb vi
  | vstsB m va vb vs vi | vstsH m va vb vs vi | vstsW m va vb vs vi =>
    exact store_sameButPc s m _ va vb _ _ (after := (·.autoIncrement vb vi)) fun _ => rfl
  | vstxB m va vo vb | vstxH m va vo vb | vstxW m va vo vb =>
    exact store_sameButPc s m _ va vb _ _ (after := id) fun _ => rfl
  | vstxuB m va vo vb | vstxuH m va vo vb | vstxuW m va vo vb =>
    exact store_sameButPc s m _ va vb _ _ (after := (·.useDraws)) fun _ => rfl
  | vldlVV m vd => exact (sameButPc_advance (s.setV vd _)).unlessFault.require
  | vstlVV | vstlVS => exact localStore_sameButPc ..
  | vfld fd vb vi =>
    exact (sameButPc_advance ((s.setF fd _).autoIncrement vb vi).useDraws).unlessFault.require
  | vfst fd vb vi =>
    exact (sameButPc_advance
      (State.autoIncrement { s with mem := _ } vb vi).useDraws).unlessFault.require.require

end

/-- Settles O56: the effect of an instruction moves the `pc`, and no operation looks at it. -/
theorem programCounter : Obligations.ProgramCounter := by
  intro i s t p hexec
  exact ⟨(exec_effect i s t hexec).pc_eq, (exec_sameButPc i s).next_eq t hexec⟩

end Sys2Proof.Machine
end

section
/-! The stops of the main-memory instructions before any access (R65, R67, R74, R211): the width, then
the program text, then the base register. Each form runs the shared load or store, which has one rule
per stop. -/

namespace Sys2Proof.Machine

variable {s : State} {m : MaskSel} {vb : VBase}

/-! ### The checks -/

theorem require_of_true {ok : Bool} (r : Refusal) (k : Result) (h : ok = true) :
    require ok r k = k := if_pos h

theorem require_of_false {ok : Bool} (r : Refusal) (k : Result) (h : ok = false) :
    require ok r k = .refused r := by
  subst h
  rfl

theorem requireFlags_singleton {fd : FReg} (k : Result) (h : reservedFlag fd = false) :
    requireFlags [fd] k = k := require_of_true _ k (by simp [h])

theorem unlessFault_of_some {f : Option Fault} {e : Fault} (k : Result) (h : f = some e) :
    unlessFault f k = .fault e := by
  subst h
  rfl

/-- R67: a width is not available exactly when it lies outside `MemMinWidth .. VPUW`. -/
theorem widthAvailable_eq_false_iff {c : Config} {wd : Width} :
    widthAvailable c wd = false ↔ wd.bits < c.memMinWidth.bits ∨ c.w < wd.bits := by
  rw [widthAvailable, Bool.and_eq_false_iff, decide_eq_false_iff_not, decide_eq_false_iff_not,
    not_le, not_le]

/-- R65, R211: a misaligned base is the fault that is reported, whatever the accesses are. -/
theorem accessFaults_of_misaligned_base {al : Nat} (n : Nat) (vps : List Nat) (addr : Nat → Int)
    (h : (s.base vb : Int) % al ≠ 0) :
    s.accessFaults vb al n vps addr = some (.misaligned (s.base vb) al) := by
  rw [State.accessFaults, alignFault, if_neg h, Option.some_or]

/-! ### Loads and stores -/

section
variable {wd : Width} {signed : Bool} {vr : VReg} {addr : Nat → Int} {order : List Nat}
  {after : State → State}

theorem load_refused_width (h : widthAvailable s.cfg wd = false) :
    s.load wd signed m vr vb addr after = .refused .widthNotAvailable :=
  require_of_false _ _ h

theorem store_refused_width (h : widthAvailable s.cfg wd = false) :
    s.store wd m vr vb addr order after = .refused .widthNotAvailable :=
  require_of_false _ _ h

theorem load_fault {e : Fault} (hw : widthAvailable s.cfg wd = true)
    (hf : s.accessFaults vb wd.bytes wd.bytes (s.activeVPs m) addr = some e) :
    s.load wd signed m vr vb addr after = .fault e := by
  rw [State.load, require_of_true _ _ hw, unlessFault_of_some _ hf]

theorem store_fault {e : Fault} (hw : widthAvailable s.cfg wd = true)
    (hc : avoidsCode s wd.bytes m addr)
    (hf : s.accessFaults vb wd.bytes wd.bytes (s.activeVPs m) addr = some e) :
    s.store wd m vr vb addr order after = .fault e := by
  have hcode : ∀ i ∈ s.activeVPs m, s.hitsCode wd.bytes (addr i) = false := fun i hi =>
    let ⟨hlt, hact⟩ := (mem_activeVPs s m i).mp hi
    hc i hlt hact
  rw [State.store, require_of_true _ _ hw, avoidingCode_eq s _ _ hcode, unlessFault_of_some _ hf]

theorem store_refused_code {k : Nat} (hw : widthAvailable s.cfg wd = true) (hk : k < s.cfg.mvl)
    (ha : s.active m k = true) (hc : s.hitsCode wd.bytes (addr k) = true) :
    s.store wd m vr vb addr order after = .refused .storeToCode := by
  rw [State.store, require_of_true _ _ hw,
    avoidingCode_refused s _ _ ((mem_activeVPs s m k).mpr ⟨hk, ha⟩) hc]

end

/-! ### The forms -/

section
variable {vr vo : VReg} {vs : VStride} {vi : VInc}

/-- R213 to R220: every load form is the shared load, with its width and its addresses. -/
theorem exec_loadForms : ∀ p ∈ loadForms s m vr vo vb vs vi,
    ∃ signed after, exec p.1 s = s.load p.2.1 signed m vr vb p.2.2 after := by
  have increments {i wd signed addr}
      (h : exec i s = s.load wd signed m vr vb addr (·.autoIncrement vb vi)) :
      ∃ signed after, exec i s = s.load wd signed m vr vb addr after := ⟨_, _, h⟩
  simp only [loadForms, List.forall_mem_cons]
  exact ⟨
    -- `vld`, `vldu`
    increments rfl, increments rfl, increments rfl, increments rfl, increments rfl,
    -- `vlds`, `vldsu`
    increments rfl, increments rfl, increments rfl, increments rfl, increments rfl,
    -- `vldx`, `vldxu`
    ⟨_, id, rfl⟩, ⟨_, id, rfl⟩, ⟨_, id, rfl⟩, ⟨_, id, rfl⟩, ⟨_, id, rfl⟩,
    List.forall_mem_nil _⟩

/-- R215, R218, R221, R222: every store form is the shared store, with its width and its
addresses. -/
theorem exec_storeForms : ∀ p ∈ storeForms s m vr vo vb vs vi,
    ∃ order after, exec p.1 s = s.store p.2.1 m vr vb p.2.2 order after := by
  have increments {i wd order addr}
      (h : exec i s = s.store wd m vr vb addr order (·.autoIncrement vb vi)) :
      ∃ order after, exec i s = s.store wd m vr vb addr order after := ⟨_, _, h⟩
  simp only [storeForms, List.forall_mem_cons]
  exact ⟨
    -- `vst`, `vsts`
    increments rfl, increments rfl, increments rfl, increments rfl, increments rfl, increments rfl,
    -- `vstx`
    ⟨_, id, rfl⟩, ⟨_, id, rfl⟩, ⟨_, id, rfl⟩,
    -- `vstxu`
    ⟨_, (·.useDraws), rfl⟩, ⟨_, (·.useDraws), rfl⟩, ⟨_, (·.useDraws), rfl⟩,
    List.forall_mem_nil _⟩

theorem storesToMemory_storeForms :
    ∀ p ∈ storeForms s m vr vo vb vs vi, storesToMemory p.1 = true := by
  simp [storeForms, storesToMemory]

variable {p : Instr × Width × (Nat → Int)}

theorem memoryForms_refused_width
    (hp : p ∈ loadForms s m vr vo vb vs vi ++ storeForms s m vr vo vb vs vi)
    (h : widthAvailable s.cfg p.2.1 = false) : exec p.1 s = .refused .widthNotAvailable := by
  obtain hp | hp := List.mem_append.mp hp
  · obtain ⟨signed, after, he⟩ := exec_loadForms p hp
    exact he.trans (load_refused_width h)
  · obtain ⟨order, after, he⟩ := exec_storeForms p hp
    exact he.trans (store_refused_width h)

/-- R211: past the refusals, the fault that the checks of the base and of the accesses find. -/
theorem memoryForms_fault {e : Fault}
    (hp : p ∈ loadForms s m vr vo vb vs vi ++ storeForms s m vr vo vb vs vi)
    (hw : widthAvailable s.cfg p.2.1 = true)
    (hc : storesToMemory p.1 = true → avoidsCode s p.2.1.bytes m p.2.2)
    (hf : s.accessFaults vb p.2.1.bytes p.2.1.bytes (s.activeVPs m) p.2.2 = some e) :
    exec p.1 s = .fault e := by
  obtain hp | hp := List.mem_append.mp hp
  · obtain ⟨signed, after, he⟩ := exec_loadForms p hp
    exact he.trans (load_fault hw hf)
  · obtain ⟨order, after, he⟩ := exec_storeForms p hp
    exact he.trans (store_fault hw (hc (storesToMemory_storeForms p hp)) hf)

end

/-! ### `vfld` and `vfst` -/

section
variable {fd : FReg} {vi : VInc}

theorem vfld_fault {e : Fault} (hr : reservedFlag fd = false)
    (hf : s.accessFaults vb (s.cfg.w / 8) 1 (List.range s.flagBytes) (s.flagAddr vb) = some e) :
    exec (.vfld fd vb vi) s = .fault e :=
  (requireFlags_singleton _ hr).trans (unlessFault_of_some _ hf)

theorem vfst_fault {e : Fault} (hr : reservedFlag fd = false) (hc : flagBytesAvoidCode s vb)
    (hf : s.accessFaults vb (s.cfg.w / 8) 1 (List.range s.flagBytes) (s.flagAddr vb) = some e) :
    exec (.vfst fd vb vi) s = .fault e :=
  calc exec (.vfst fd vb vi) s
    _ = s.avoidingCode 1 (List.range s.flagBytes) (s.flagAddr vb) (unlessFault _ _) :=
      requireFlags_singleton _ hr
    _ = unlessFault _ _ := avoidingCode_eq s 1 _ fun j hj => hc j (List.mem_range.mp hj)
    _ = .fault e := unlessFault_of_some _ hf

theorem vfst_refused_code {j : Nat} (hr : reservedFlag fd = false) (hj : j < s.flagBytes)
    (hc : s.hitsCode 1 (s.flagAddr vb j) = true) :
    exec (.vfst fd vb vi) s = .refused .storeToCode :=
  (requireFlags_singleton _ hr).trans (avoidingCode_refused s 1 _ (List.mem_range.mpr hj) hc)

end

end Sys2Proof.Machine
end

section
/-! The order of R211: the refusals of step 1, then the fault of the base register of step 2. -/

namespace Sys2Proof.Machine

/-- Settles O28: past the refusals the base is checked first, so its fault is the one reported. -/
theorem misalignedBaseFaults : Obligations.MisalignedBaseFaults := by
  intro s m vr vo vb vs vi
  refine ⟨fun p hp hw hb hc => ?_, fun fd hr hb => ?_⟩
  · exact memoryForms_fault hp hw hc (accessFaults_of_misaligned_base _ _ _ hb)
  · have hf := accessFaults_of_misaligned_base 1 (List.range s.flagBytes) (s.flagAddr vb) hb
    simp only [List.forall_mem_cons]
    exact ⟨fun _ => vfld_fault hr hf, fun hc => vfst_fault hr (hc rfl) hf, List.forall_mem_nil _⟩

/-- Settles O30: the width is checked first, the program text before the base and the accesses. -/
theorem widthAndCodeRefusals : Obligations.WidthAndCodeRefusals := by
  intro s m vr vo vb vs vi
  refine ⟨fun p hp hw => ?_, fun p hp hw ⟨k, hk, ha, hc⟩ => ?_, fun fd hr ⟨j, hj, hc⟩ => ?_⟩
  · exact memoryForms_refused_width hp (widthAvailable_eq_false_iff.mpr hw)
  · obtain ⟨order, after, he⟩ := exec_storeForms p hp
    exact he.trans (store_refused_code hw hk ha hc)
  · exact vfst_refused_code hr hj hc

end Sys2Proof.Machine
end

section
/-! The encoding in both directions (R93 to R109, R125): a word of the opcodes 0x3D to 0x3F decodes to
the instruction it is the word of, or is reserved; every other word is one of the scalar core. -/

namespace Sys2Proof

variable {c : Config} {w : Word} {func : Nat}

/-- Decoding `w` in the vector tables answers `d`: a reserved encoding, or an instruction of which `w` is
the word. -/
def isTableAnswer (c : Config) (w : Word) (d : Decoded) : Prop :=
  d = .reserved ∨
    ∃ i, d = .instr i ∧ i.wellFormed c = true ∧ encode FieldLayout.r93 i = some w

/-- What a row of a table answers: its reader gives back the operands the word is packed from (`read`),
and the codes of the word are those the instruction is encoded with. -/
theorem isTableAnswer_read {d : Decoded} {l : FieldLayout} {fields : List BitField} {j : Instr}
    {op opx : Nat} (hd : d = accept l fields w.toNat j) (hc : hasCodes w.toNat op opx func)
    (read : ∀ i, d = .instr i → ∃ pack : Nat → Nat → Nat → Word,
      i.wellFormed c = true ∧ encode FieldLayout.r93 i = some (pack op opx func) ∧
      w = pack (FieldLayout.r93.op.get w.toNat) (FieldLayout.r93.opx.get w.toNat)
        (FieldLayout.r93.func.get w.toNat)) : isTableAnswer c w d := by
  by_cases hf : onlyFields l fields w.toNat = true
  · have hj : d = .instr j := hd.trans (if_pos hf)
    obtain ⟨pack, hwf, he, hw⟩ := read j hj
    obtain ⟨hop, hopx, hfunc⟩ := hc
    rw [hop, hopx, hfunc] at hw
    exact .inr ⟨j, hj, hwf, he.trans (congrArg some hw.symm)⟩
  · exact .inl (hd.trans (if_neg hf))

/-! ### The tables

One lemma for each table of R103 to R107, split into its rows: `h_k` is the `k`-th row, and rows of one
operand form stand together. -/

theorem decodeVectorRegister_answers (hl : c.layout = FieldLayout.r93)
    (hc : hasCodes w.toNat 0x3D 0 func) :
    isTableAnswer c w (decodeVectorRegister c w.toNat func) := by
  simp only [decodeVectorRegister, hl]
  split
  case h_1 | h_2 | h_4 | h_5 | h_6 | h_7 | h_8 | h_10 | h_11 | h_13 | h_14 | h_15 | h_17 | h_19
      | h_22 | h_24 | h_27 | h_28 | h_29 | h_30 | h_31 | h_32 | h_33 =>
    refine isTableAnswer_read rfl hc fun i h => ?_
    obtain ⟨m, vd, va, vb, rfl, hw⟩ := readVRvvv_eq h
    exact ⟨(packVRvvv _ · · · m vd va vb), rfl, rfl, hw⟩
  case h_3 | h_9 =>
    refine isTableAnswer_read rfl hc fun i h => ?_
    obtain ⟨m, va, vb, rfl, hw⟩ := readVRab_eq h
    exact ⟨(packVRab _ · · · m va vb), rfl, rfl, hw⟩
  case h_12 | h_16 | h_18 | h_20 | h_21 | h_23 =>
    refine isTableAnswer_read rfl hc fun i h => ?_
    obtain ⟨m, fd, va, vb, rfl, hw⟩ := readVRfvv_eq h
    exact ⟨(packVRfvv _ · · · m fd va vb), rfl, rfl, hw⟩
  case h_25 | h_26 | h_35 =>
    refine isTableAnswer_read rfl hc fun i h => ?_
    obtain ⟨vd, va, rfl, hw⟩ := readVRda_eq h
    exact ⟨(packVRda _ · · · vd va), rfl, rfl, hw⟩
  case h_34 | h_39 =>
    refine isTableAnswer_read rfl hc fun i h => ?_
    obtain ⟨vd, rfl, hw⟩ := readVRd_eq h
    exact ⟨(packVRd _ · · · vd), rfl, rfl, hw⟩
  case h_36 | h_37 | h_38 =>
    refine isTableAnswer_read rfl hc fun i h => ?_
    obtain ⟨m, vd, va, rfl, hw⟩ := readVRmda_eq h
    exact ⟨(packVRmda _ · · · m vd va), rfl, rfl, hw⟩
  case h_40 => exact .inl rfl

theorem decodeScalarVector_answers (hl : c.layout = FieldLayout.r93)
    (hc : hasCodes w.toNat 0x3D 1 func) :
    isTableAnswer c w (decodeScalarVector c w.toNat func) := by
  simp only [decodeScalarVector, hl]
  split
  case h_1 | h_2 | h_4 | h_5 | h_6 | h_7 | h_8 | h_10 | h_11 | h_13 | h_14 | h_15 | h_17 | h_19
      | h_22 | h_24 | h_27 | h_28 | h_29 | h_30 | h_32 | h_33 | h_34 | h_35 | h_36 | h_37
      | h_38 | h_39 | h_41 | h_43 | h_44 | h_46 =>
    refine isTableAnswer_read rfl hc fun i h => ?_
    obtain ⟨m, vd, va, rs, rfl, hw⟩ := readSSvs_eq h
    exact ⟨(packSSvs _ · · · m vd va rs), rfl, rfl, hw⟩
  case h_3 | h_9 =>
    refine isTableAnswer_read rfl hc fun i h => ?_
    obtain ⟨m, va, rs, rfl, hw⟩ := readSSa_eq h
    exact ⟨(packSSa _ · · · m va rs), rfl, rfl, hw⟩
  case h_12 | h_16 | h_18 | h_20 | h_21 | h_23 | h_40 | h_42 | h_45 | h_47 =>
    refine isTableAnswer_read rfl hc fun i h => ?_
    obtain ⟨m, fd, va, rs, rfl, hw⟩ := readSSfvs_eq h
    exact ⟨(packSSfvs _ · · · m fd va rs), rfl, rfl, hw⟩
  case h_25 | h_31 =>
    refine isTableAnswer_read rfl hc fun i h => ?_
    obtain ⟨rd, va, rfl, hw⟩ := readSDv_eq h
    exact ⟨(packSDv _ · · · rd va), rfl, rfl, hw⟩
  case h_26 =>
    refine isTableAnswer_read rfl hc fun i h => ?_
    obtain ⟨vd, rs, rfl, hw⟩ := readSSd_eq h
    exact ⟨(packSSd _ · · · vd rs), rfl, rfl, hw⟩
  case h_48 => exact .inl rfl

theorem decodeFixedPoint_answers (hl : c.layout = FieldLayout.r93)
    (hc : hasCodes w.toNat 0x3E 0 func) :
    isTableAnswer c w (decodeFixedPoint c w.toNat func) := by
  simp only [decodeFixedPoint, hl]
  split
  case h_1 | h_2 | h_6 | h_7 | h_8 | h_9 | h_13 | h_14 =>
    refine isTableAnswer_read rfl hc fun i h => ?_
    obtain ⟨m, vd, va, vb, rfl, hw⟩ := readVRvvv_eq h
    exact ⟨(packVRvvv _ · · · m vd va vb), rfl, rfl, hw⟩
  case h_3 | h_10 | h_16 =>
    refine isTableAnswer_read rfl hc fun i h => ?_
    obtain ⟨m, vd, va, rfl, hw⟩ := readVRmda_eq h
    exact ⟨(packVRmda _ · · · m vd va), beq_self_eq_true _, rfl, hw⟩
  case h_4 | h_5 | h_11 | h_12 =>
    refine isTableAnswer_read rfl hc fun i h => ?_
    obtain ⟨m, vd, va, rfl, hw⟩ := readVRmda_eq h
    exact ⟨(packVRmda _ · · · m vd va), rfl, rfl, hw⟩
  case h_15 | h_17 =>
    refine isTableAnswer_read rfl hc fun i h => ?_
    obtain ⟨vd, rfl, hw⟩ := readVRd_eq h
    exact ⟨(packVRd _ · · · vd), rfl, rfl, hw⟩
  case h_18 | h_19 | h_20 | h_21 | h_22 | h_23 | h_24 | h_25 | h_26 | h_27 =>
    refine isTableAnswer_read rfl hc fun i h => ?_
    obtain ⟨m, vd, va, rs, rfl, hw⟩ := readSSvs_eq h
    exact ⟨(packSSvs _ · · · m vd va rs), rfl, rfl, hw⟩
  case h_28 => exact .inl rfl

theorem decodeFlagMisc_answers (hl : c.layout = FieldLayout.r93)
    (hc : hasCodes w.toNat 0x3E 1 func) :
    isTableAnswer c w (decodeFlagMisc c w.toNat func) := by
  simp only [decodeFlagMisc, hl]
  split
  case h_1 | h_2 =>
    refine isTableAnswer_read rfl hc fun i h => ?_
    obtain ⟨fd, rfl, hw⟩ := readVRf_eq h
    exact ⟨(packVRf _ · · · fd), rfl, rfl, hw⟩
  case h_3 | h_4 | h_5 | h_6 =>
    refine isTableAnswer_read rfl hc fun i h => ?_
    obtain ⟨fd, fa, fb, rfl, hw⟩ := readVRfff_eq h
    exact ⟨(packVRfff _ · · · fd fa fb), rfl, rfl, hw⟩
  case h_7 | h_8 =>
    refine isTableAnswer_read rfl hc fun i h => ?_
    obtain ⟨rd, fa, rfl, hw⟩ := readSDf_eq h
    exact ⟨(packSDf _ · · · rd fa), rfl, rfl, hw⟩
  case h_9 | h_10 | h_11 =>
    refine isTableAnswer_read rfl hc fun i h => ?_
    obtain ⟨fd, fa, rfl, hw⟩ := readVRff_eq h
    exact ⟨(packVRff _ · · · fd fa), rfl, rfl, hw⟩
  case h_12 =>
    refine isTableAnswer_read rfl hc fun i h => ?_
    obtain ⟨fd, rs, rfl, hw⟩ := readSSf_eq h
    exact ⟨(packSSf _ · · · fd rs), rfl, rfl, hw⟩
  case h_13 | h_14 | h_15 | h_16 =>
    refine isTableAnswer_read rfl hc fun i h => ?_
    obtain ⟨fd, fa, rs, rfl, hw⟩ := readSSff_eq h
    exact ⟨(packSSff _ · · · fd fa rs), rfl, rfl, hw⟩
  case h_17 =>
    refine isTableAnswer_read rfl hc fun i h => ?_
    obtain ⟨vc, rs, rfl, hw⟩ := readSSc_eq h
    exact ⟨(packSSc _ · · · vc rs), rfl, rfl, hw⟩
  case h_18 =>
    refine isTableAnswer_read rfl hc fun i h => ?_
    obtain ⟨rd, wc, rfl, hw⟩ := readSDc_eq h
    exact ⟨(packSDc _ · · · rd wc), rfl, rfl, hw⟩
  case h_19 => exact .inl rfl

theorem decodeMemory_answers (hl : c.layout = FieldLayout.r93)
    (hc : hasCodes w.toNat 0x3F 0 func) :
    isTableAnswer c w (decodeMemory c w.toNat func) := by
  simp only [decodeMemory, hl]
  split
  case h_1 | h_2 | h_8 | h_11 | h_12 | h_18 | h_21 | h_22 =>
    refine isTableAnswer_read rfl hc fun i h => ?_
    obtain ⟨m, vd, bb, vi, rfl, hw⟩ := readVM_eq h
    exact ⟨(packVM _ · · · m vd bb vi), rfl, rfl, hw⟩
  case h_3 | h_4 | h_9 | h_13 | h_14 | h_19 | h_23 | h_24 =>
    refine isTableAnswer_read rfl hc fun i h => ?_
    obtain ⟨m, vd, bb, vs, vi, rfl, hw⟩ := readVMS_eq h
    exact ⟨(packVMS _ · · · m vd bb vs vi), rfl, rfl, hw⟩
  case h_5 | h_6 | h_7 | h_10 | h_15 | h_16 | h_17 | h_20 | h_25 | h_26 | h_27 =>
    refine isTableAnswer_read rfl hc fun i h => ?_
    obtain ⟨m, vd, vo, bb, rfl, hw⟩ := readVMX_eq h
    exact ⟨(packVMX _ · · · m vd vo bb), rfl, rfl, hw⟩
  case h_28 =>
    refine isTableAnswer_read rfl hc fun i h => ?_
    obtain ⟨m, vd, va, rfl, hw⟩ := readVRmda_eq h
    exact ⟨(packVRmda _ · · · m vd va), rfl, rfl, hw⟩
  case h_29 =>
    refine isTableAnswer_read rfl hc fun i h => ?_
    obtain ⟨m, va, vb, rfl, hw⟩ := readVRab_eq h
    exact ⟨(packVRab _ · · · m va vb), rfl, rfl, hw⟩
  case h_30 | h_31 =>
    refine isTableAnswer_read rfl hc fun i h => ?_
    obtain ⟨fd, bb, vi, rfl, hw⟩ := readVMf_eq h
    exact ⟨(packVMf _ · · · fd bb vi), rfl, rfl, hw⟩
  case h_32 => exact .inl rfl

theorem decodeMemoryScalar_answers (hl : c.layout = FieldLayout.r93)
    (hc : hasCodes w.toNat 0x3F 1 func) :
    isTableAnswer c w (decodeMemoryScalar c w.toNat func) := by
  simp only [decodeMemoryScalar, hl]
  split
  case h_1 =>
    refine isTableAnswer_read rfl hc fun i h => ?_
    obtain ⟨m, va, rs, rfl, hw⟩ := readSSa_eq h
    exact ⟨(packSSa _ · · · m va rs), rfl, rfl, hw⟩
  case h_2 => exact .inl rfl

theorem op_get_r93 (n : Nat) : FieldLayout.r93.op.get n = n % 64 := by
  simp [BitField.get, FieldLayout.r93]

theorem opx_get_r93 (n : Nat) :
    FieldLayout.r93.opx.get n = 0 ∨ FieldLayout.r93.opx.get n = 1 :=
  Nat.lt_succ_iff_lt_or_eq.mp (get_lt FieldLayout.r93.opx n) |>.imp_left Nat.lt_one_iff.mp

/-- R125: a word of a vector opcode is looked up in the table of its opcode and its `OPX` bit. -/
theorem decodeWord_vector (hl : c.layout = FieldLayout.r93)
    (hop : w.toNat % 64 ∈ [0x3D, 0x3E, 0x3F]) : isTableAnswer c w (decodeWord c w) := by
  simp only [← op_get_r93, List.mem_cons, List.not_mem_nil, or_false] at hop
  rw [decodeWord]
  obtain hop | hop | hop := hop <;> obtain hopx | hopx := opx_get_r93 w.toNat
  · rw [decodeNat_vectorRegister hl ⟨hop, hopx, rfl⟩]
    exact decodeVectorRegister_answers hl ⟨hop, hopx, rfl⟩
  · rw [decodeNat_scalarVector hl ⟨hop, hopx, rfl⟩]
    exact decodeScalarVector_answers hl ⟨hop, hopx, rfl⟩
  · rw [decodeNat_fixedPoint hl ⟨hop, hopx, rfl⟩]
    exact decodeFixedPoint_answers hl ⟨hop, hopx, rfl⟩
  · rw [decodeNat_flagMisc hl ⟨hop, hopx, rfl⟩]
    exact decodeFlagMisc_answers hl ⟨hop, hopx, rfl⟩
  · rw [decodeNat_memory hl ⟨hop, hopx, rfl⟩]
    exact decodeMemory_answers hl ⟨hop, hopx, rfl⟩
  · rw [decodeNat_memoryScalar hl ⟨hop, hopx, rfl⟩]
    exact decodeMemoryScalar_answers hl ⟨hop, hopx, rfl⟩

/-- R109: a word of any other opcode is one of the scalar core. -/
theorem decodeWord_scalar (hl : c.layout = FieldLayout.r93)
    (hop : w.toNat % 64 ∉ [0x3D, 0x3E, 0x3F]) : decodeWord c w = .scalar := by
  simp only [← op_get_r93, List.mem_cons, List.not_mem_nil, or_false, not_or] at hop
  obtain ⟨h3D, h3E, h3F⟩ := hop
  unfold decodeWord decodeNat
  rw [hl]
  split
  case h_7 => rfl
  all_goals contradiction

/-- Settles O51: the codes of a word select the row its instruction came from, and the reader of that row
gives the operands back. -/
theorem decodeOfEncode : Obligations.DecodeOfEncode := by
  intro c i hl hwf
  rw [hl]
  exact Option.map_eq_some_iff.mp (decodeWord_encode hl i hwf)

/-- Settles O52: a word of a vector opcode gets a table's answer, which is never one of the scalar core,
and every other word is one of the scalar core. -/
theorem encodeOfDecode : Obligations.EncodeOfDecode := by
  intro c w hl
  by_cases hop : w.toNat % 64 ∈ [0x3D, 0x3E, 0x3F]
  · obtain hd | ⟨i, hd, hwf, he⟩ := decodeWord_vector hl hop
    · simp [hd, hop]
    · rw [hd, hl]
      refine ⟨fun j hj => ?_, by simp [hop], by simp⟩
      cases hj
      exact ⟨hwf, he⟩
  · simp [decodeWord_scalar hl hop, hop]

/-- Settles O53: each word is decoded. -/
theorem writtenWordsDecode : Obligations.WrittenWordsDecode := by
  unfold Obligations.WrittenWordsDecode
  decide

end Sys2Proof
end

section
/-! The step where no vector instruction stands (R109, R300, R324). -/

namespace Sys2Proof.Machine

variable {s : State} {w : Word}

/-- R324: past the last word of the program the run has ended. -/
theorem fetch_ended (h : s.pc.toNat = s.startPC.toNat + 4 * s.program.length) :
    s.fetch = .ended := by
  have hindex : s.programIndex = some s.program.length := by
    rw [State.programIndex, if_pos (by omega)]
    congr 1
    omega
  simp [State.fetch, hindex]

/-- R324: anywhere else than at a word of the program or just past the last one nothing stands. -/
theorem fetch_outside (h : ∀ n, n ≤ s.program.length → s.pc.toNat ≠ s.startPC.toNat + 4 * n) :
    s.fetch = .outside := by
  rw [State.fetch]
  cases hindex : s.programIndex with
  | none => rfl
  | some n =>
    have hpc : s.pc.toNat = s.startPC.toNat + 4 * n := by
      rw [State.programIndex] at hindex
      split_ifs at hindex with hplace
      have := Option.some.inj hindex
      omega
    have hn : s.program.length < n := Nat.lt_of_not_le fun hle => h n hle hpc
    simp [List.getElem?_eq_none hn.le, hn.ne']

theorem step_of_reserved (hw : standsAt s w) (hd : decodeWord s.cfg w = .reserved) :
    step s = .refused .reservedEncoding := by
  simp only [step, fetch_of_standsAt hw, hd]

theorem step_of_scalar (hw : standsAt s w) (hd : decodeWord s.cfg w = .scalar) :
    step s = .next s.scalarCoreStep := by
  simp only [step, fetch_of_standsAt hw, hd]

/-- Writes at other addresses leave a byte of memory as it is. -/
theorem read_foldl_write_ne {a : Nat} {cells : List Host.Cell} (h : ∀ c ∈ cells, c.1 ≠ a) (m : Memory) :
    (cells.foldl (fun mem c => mem.write c.1 c.2) m).read a = m.read a := by
  induction cells generalizing m with
  | nil => rfl
  | cons c cells ih =>
    have hc : a ≠ c.1 := (h c List.mem_cons_self).symm
    calc ((c :: cells).foldl (fun mem c => mem.write c.1 c.2) m).read a
      _ = (m.write c.1 c.2).read a := ih (fun d hd => h d (List.mem_cons_of_mem c hd)) _
      _ = m.read a := by rw [Memory.read_write, if_neg hc]

/-- R300: the scalar core stores to plain memory only. -/
theorem scalarCoreStep_read {a : Nat} (h : plainByte s.cfg a = false) :
    s.scalarCoreStep.mem.read a = s.mem.read a := by
  refine read_foldl_write_ne (fun c hc hca => ?_) s.mem
  have hplain : plainByte s.cfg c.1 = true := (List.mem_filter.mp hc).2
  rw [hca, h] at hplain
  cases hplain

/-- Settles O55: what stands at the `pc` decides the step, and the scalar core changes its own registers,
the `pc` and plain memory only. -/
theorem stepOfOtherWords : Obligations.StepOfOtherWords := by
  intro s w
  refine ⟨step_of_reserved, fun hw hl hop => ?_, fun h => ?_, fun h => ?_⟩
  · exact ⟨s.scalarCoreStep, step_of_scalar hw (decodeWord_scalar hl hop), rfl, rfl,
      State.scalarCoreStep_creg s, rfl, rfl, by simp, rfl, rfl, rfl,
      fun a ha => scalarCoreStep_read ha⟩
  · simp only [step, fetch_ended h]
  · simp only [step, fetch_outside h]

end Sys2Proof.Machine
end

section
/-! The integer arithmetic (R132 to R148, R167, R173, R174). Every form of an instruction runs the element
loop of R14 with one element function: what that function computes is all there is to say of the forms. -/

namespace Sys2Proof.Machine

/-! ### Codes of opcode 0x3D (R103, R104) -/

section
variable {i : Instr} {m : MaskSel} {func : Nat}

/-- A `.vv` form that writes a vector register. -/
theorem hasCell_vv {vd va vb : VReg} (hf : func < 64 := by decide)
    (h : encode .r93 i = some (packVRvvv .r93 0x3D 0 func m vd va vb) := by rfl) :
    hasCell i 0x3D 0 func :=
  hasCell_of h (packVRvvv_codes (by decide) (by decide) hf m vd va vb)

/-- A `.vs` or `.sv` form that writes a vector register. -/
theorem hasCell_vs {vd va : VReg} {rs : SReg} (hf : func < 64 := by decide)
    (h : encode .r93 i = some (packSSvs .r93 0x3D 1 func m vd va rs) := by rfl) :
    hasCell i 0x3D 1 func :=
  hasCell_of h (packSSvs_codes (by decide) (by decide) hf m vd va rs)

/-- A `.vv` form that writes a flag register. -/
theorem hasCell_fvv {fd : FReg} {va vb : VReg} (hf : func < 64 := by decide)
    (h : encode .r93 i = some (packVRfvv .r93 0x3D 0 func m fd va vb) := by rfl) :
    hasCell i 0x3D 0 func :=
  hasCell_of h (packVRfvv_codes (by decide) (by decide) hf m fd va vb)

/-- A `.vs` or `.sv` form that writes a flag register. -/
theorem hasCell_fvs {fd : FReg} {va : VReg} {rs : SReg} (hf : func < 64 := by decide)
    (h : encode .r93 i = some (packSSfvs .r93 0x3D 1 func m fd va rs) := by rfl) :
    hasCell i 0x3D 1 func :=
  hasCell_of h (packSSfvs_codes (by decide) (by decide) hf m fd va rs)

end

/-! ### Sums and differences -/

/-- Settles O1: each of the four element functions wraps the exact sum or difference. -/
theorem sumsAndDifferencesWrap : Obligations.SumsAndDifferencesWrap := by
  intro s m vd va vb rs sum sumu dif difu
  have add {i a b} (h : exec i s = s.elementwise m vd a b opAdd) : computes i s m vd (sum a b) :=
    computes_of_elementwise h fun _ => wrapsTo_ofInt s.cfg _
  have addu {i a b} (h : exec i s = s.elementwise m vd a b opAddu) : computes i s m vd (sumu a b) :=
    computes_of_elementwise h fun _ => wrapsTo_ofInt s.cfg _
  have sub {i a b} (h : exec i s = s.elementwise m vd a b opSub) : computes i s m vd (dif a b) :=
    computes_of_elementwise h fun _ => wrapsTo_ofInt s.cfg _
  have subu {i a b} (h : exec i s = s.elementwise m vd a b opSubu) : computes i s m vd (difu a b) :=
    computes_of_elementwise h fun _ => wrapsTo_ofInt s.cfg _
  exact ⟨⟨add rfl, add rfl⟩, ⟨addu rfl, addu rfl⟩, ⟨sub rfl, sub rfl, sub rfl⟩,
    ⟨subu rfl, subu rfl, subu rfl⟩,
    ⟨hasCell_vv, hasCell_vs⟩, ⟨hasCell_vv, hasCell_vs⟩, ⟨hasCell_vv, hasCell_vs, hasCell_vs⟩,
    ⟨hasCell_vv, hasCell_vs, hasCell_vs⟩⟩

/-! ### Products -/

/-- The upper half of an unsigned product, as the natural number that it is. -/
theorem opMulhiu_spec (c : Config) (d : DrawKind → BitVec c.w) (a b : BitVec c.w) :
    wrapsTo c (a.toNat * b.toNat / 2 ^ c.w : Nat) ((opMulhiu c d a b).setWidth 32) := by
  have h := upperHalf_wrapsTo c (a.toNat * b.toNat)
  exact_mod_cast h

/-- Settles O2: the two halves of the `2W`-bit product, behind the check of `Vmult`. -/
theorem productHalves : Obligations.ProductHalves := by
  intro s m vd va vb rs hi hiu lo lou forms
  refine ⟨fun hv => ?_, fun hv => ?_, ?_⟩
  · have checked {i r} (h : exec i s = require s.cfg.vmult .featureOff r) : exec i s = r :=
      h.trans (require_of_true _ _ hv)
    have upper {i a b} (h : exec i s = s.elementwise m vd a b opMulhi) :
        computes i s m vd (hi a b) :=
      computes_of_elementwise h fun _ => upperHalf_wrapsTo s.cfg _
    have upperu {i a b} (h : exec i s = s.elementwise m vd a b opMulhiu) :
        computes i s m vd (hiu a b) :=
      computes_of_elementwise h fun _ => opMulhiu_spec s.cfg _ _ _
    have lower {i a b} (h : exec i s = s.elementwise m vd a b opMullo) :
        computes i s m vd (lo a b) :=
      computes_of_elementwise h fun _ => lowerHalf_wrapsTo s.cfg _
    have loweru {i a b} (h : exec i s = s.elementwise m vd a b opMullou) :
        computes i s m vd (lou a b) :=
      computes_of_elementwise h fun _ => lowerHalf_wrapsTo s.cfg _
    exact ⟨upper (checked rfl), upper (checked rfl), upperu (checked rfl), upperu (checked rfl),
      lower (checked rfl), lower (checked rfl), loweru (checked rfl), loweru (checked rfl)⟩
  · have off {i k} (h : exec i s = require s.cfg.vmult .featureOff k) :
        exec i s = .refused .featureOff := h.trans (require_of_false _ _ hv)
    simp only [forms, List.forall_mem_cons]
    exact ⟨off rfl, off rfl, off rfl, off rfl, off rfl, off rfl, off rfl, off rfl,
      List.forall_mem_nil _⟩
  · simp only [forms, List.forall_mem_cons]
    exact ⟨hasCell_vv, hasCell_vs, hasCell_vv, hasCell_vs, hasCell_vv, hasCell_vs, hasCell_vv,
      hasCell_vs, List.forall_mem_nil _⟩

/-! ### Absolute values and quotients -/

/-- Settles O3: the drawn value of `vabs` is met at the most negative element alone, and a difference of
two elements fits in `W` bits under either reading. -/
theorem absoluteValues : Obligations.AbsoluteValues := by
  intro s m vd va vb rs diff
  have absdiff {i a b} (h : exec i s = s.elementwise m vd a b opAbsdiff) :
      computes i s m vd (diff a b) :=
    computes_of_elementwise h fun _ => opAbsdiff_spec s.cfg _ _ _
  exact ⟨computes_of_elementwise rfl fun _ => opAbs_spec s.cfg _ _ _, absdiff rfl, absdiff rfl,
    hasCell_of rfl (packVRmda_codes (by decide) (by decide) (by decide) m vd va),
    hasCell_vv, hasCell_vs⟩

/-- Settles O4: the two exceptional operand pairs draw, and every other pair divides. -/
theorem quotients : Obligations.Quotients := by
  intro s m vd va vb rs quo quou
  have div {i a b} (h : exec i s = s.elementwise m vd a b opDiv) : computes i s m vd (quo a b) :=
    computes_of_elementwise h fun _ => opDiv_spec s.cfg _ _ _
  have divu {i a b} (h : exec i s = s.elementwise m vd a b opDivu) : computes i s m vd (quou a b) :=
    computes_of_elementwise h fun _ => opDivu_spec s.cfg _ _ _
  refine ⟨div rfl, div rfl, div rfl, divu rfl, divu rfl, divu rfl, ?_⟩
  simp only [List.forall_mem_cons]
  exact ⟨hasCell_vv, hasCell_vs, hasCell_vs, hasCell_vv, hasCell_vs, hasCell_vs,
    List.forall_mem_nil _⟩

/-! ### Shifts -/

/-- Settles O5: the three element functions draw from the amount `W` on. -/
theorem shifts : Obligations.Shifts := by
  intro s m vd va vb rs shift sra sll srl
  have right {i a b} (h : exec i s = s.elementwise m vd a b opSra) : computes i s m vd (sra a b) :=
    computes_of_elementwise h fun _ => opSra_spec s.cfg _ _ _
  have left {i a b} (h : exec i s = s.elementwise m vd a b opSll) : computes i s m vd (sll a b) :=
    computes_of_elementwise h fun _ => opSll_spec s.cfg _ _ _
  have rightu {i a b} (h : exec i s = s.elementwise m vd a b opSrl) : computes i s m vd (srl a b) :=
    computes_of_elementwise h fun _ => opSrl_spec s.cfg _ _ _
  refine ⟨⟨right rfl, right rfl, right rfl⟩, ⟨left rfl, left rfl, left rfl⟩,
    ⟨rightu rfl, rightu rfl, rightu rfl⟩, ?_⟩
  simp only [List.forall_mem_cons]
  exact ⟨hasCell_vv, hasCell_vs, hasCell_vs, hasCell_vv, hasCell_vs, hasCell_vs, hasCell_vv,
    hasCell_vs, hasCell_vs, List.forall_mem_nil _⟩

/-! ### Minima and maxima -/

/-- Settles O7: an element function that picks the smaller or the larger operand. -/
theorem minimaAndMaxima : Obligations.MinimaAndMaxima := by
  intro s m vd va vb rs sgn uns
  have least {i a b} (h : exec i s = s.elementwise m vd a b opMin) :
      computes i s m vd (sgn min a b) :=
    computes_of_elementwise h fun _ => opMin_spec s.cfg (fun _ => 0) _ _
  have greatest {i a b} (h : exec i s = s.elementwise m vd a b opMax) :
      computes i s m vd (sgn max a b) :=
    computes_of_elementwise h fun _ => opMax_spec s.cfg (fun _ => 0) _ _
  have leastu {i a b} (h : exec i s = s.elementwise m vd a b opMinu) :
      computes i s m vd (uns min a b) :=
    computes_of_elementwise h fun _ => opMinu_spec s.cfg (fun _ => 0) _ _
  have greatestu {i a b} (h : exec i s = s.elementwise m vd a b opMaxu) :
      computes i s m vd (uns max a b) :=
    computes_of_elementwise h fun _ => opMaxu_spec s.cfg (fun _ => 0) _ _
  refine ⟨least rfl, least rfl, greatest rfl, greatest rfl, leastu rfl, leastu rfl, greatestu rfl,
    greatestu rfl, ?_⟩
  simp only [List.forall_mem_cons]
  exact ⟨hasCell_vv, hasCell_vs, hasCell_vv, hasCell_vs, hasCell_vv, hasCell_vs, hasCell_vv,
    hasCell_vs, List.forall_mem_nil _⟩

/-! ### Signed and unsigned forms (R167) -/

theorem opAddu_eq_opAdd : opAddu = opAdd := by
  funext c _ a b
  simp only [opAddu, opAdd, BitVec.ofInt_add, BitVec.ofInt_toInt, BitVec.ofInt_natCast,
    BitVec.ofNat_toNat, BitVec.setWidth_eq]

theorem opSubu_eq_opSub : opSubu = opSub := by
  funext c _ a b
  simp only [opSubu, opSub, Int.sub_eq_add_neg, BitVec.ofInt_add, BitVec.ofInt_neg,
    BitVec.ofInt_toInt, BitVec.ofInt_natCast, BitVec.ofNat_toNat, BitVec.setWidth_eq]

/-- The lower half of a product is the product wrapped to `W` bits. -/
theorem lowerHalf_eq_ofInt (c : Config) (p : Int) : lowerHalf c.w p = BitVec.ofInt c.w p := by
  have h : wrapsTo c p _ := lowerHalf_wrapsTo c p
  have h' := wrapsTo_ofInt c p
  rw [wrapsTo, elem_toNat] at h h'
  exact BitVec.eq_of_toNat_eq (Int.ofNat.inj (h.trans h'.symm))

theorem opMullou_eq_opMullo : opMullou = opMullo := by
  funext c _ a b
  simp only [opMullou, opMullo, lowerHalf_eq_ofInt, BitVec.ofInt_mul, BitVec.ofInt_toInt,
    BitVec.ofInt_natCast, BitVec.ofNat_toNat, BitVec.setWidth_eq]

/-- Settles O10: the element functions of a pair are equal, so that both instructions of the pair
answer the same. -/
theorem signednessDoesNotMatter : Obligations.SignednessDoesNotMatter := by
  intro s t u m vd va vb rs p hp ht hu r i
  have same : exec p.2 s = exec p.1 s := by
    have sum {a b} : s.elementwise m vd a b opAddu = s.elementwise m vd a b opAdd :=
      congrArg (s.elementwise m vd a b) opAddu_eq_opAdd
    have difference {a b} : s.elementwise m vd a b opSubu = s.elementwise m vd a b opSub :=
      congrArg (s.elementwise m vd a b) opSubu_eq_opSub
    have product {a b} : require s.cfg.vmult .featureOff (s.elementwise m vd a b opMullou) =
        require s.cfg.vmult .featureOff (s.elementwise m vd a b opMullo) :=
      congrArg (fun op => require _ _ (s.elementwise m vd a b op)) opMullou_eq_opMullo
    clear ht hu
    revert p
    simp only [List.forall_mem_cons]
    exact ⟨sum, sum, difference, difference, difference, product, product, List.forall_mem_nil _⟩
  rw [(next_inj).mp (ht.symm.trans (same.symm.trans hu))]

end Sys2Proof.Machine
end

section
/-! The compares (R149 to R154, R156). -/

namespace Sys2Proof.Machine

/-- Settles O9: every form runs the compare loop of R156 with one comparison, which decides the
relation of the two elements read as integers. -/
theorem comparesHold : Obligations.Compares := by
  intro s m fd va vb rs hf eq ne lt ltu le leu
  have equal {i a b} (h : exec i s = s.compare m fd a b cmpEq) : compares i s m fd (eq a b) :=
    compares_of_compare hf h fun _ => beq_iff_eq.trans BitVec.toNat_inj.symm
  have unequal {i a b} (h : exec i s = s.compare m fd a b cmpNeq) : compares i s m fd (ne a b) :=
    compares_of_compare hf h fun _ => bne_iff_ne.trans BitVec.toNat_inj.symm.not
  have less {i a b} (h : exec i s = s.compare m fd a b cmpLt) : compares i s m fd (lt a b) :=
    compares_of_compare hf h fun _ => decide_eq_true_iff
  have lessu {i a b} (h : exec i s = s.compare m fd a b cmpLtu) : compares i s m fd (ltu a b) :=
    compares_of_compare hf h fun _ => decide_eq_true_iff
  have atMost {i a b} (h : exec i s = s.compare m fd a b cmpLe) : compares i s m fd (le a b) :=
    compares_of_compare hf h fun _ => decide_eq_true_iff
  have atMostu {i a b} (h : exec i s = s.compare m fd a b cmpLeu) : compares i s m fd (leu a b) :=
    compares_of_compare hf h fun _ => decide_eq_true_iff
  refine ⟨⟨equal rfl, equal rfl⟩, ⟨unequal rfl, unequal rfl⟩, ⟨less rfl, less rfl, less rfl⟩,
    ⟨lessu rfl, lessu rfl, lessu rfl⟩, ⟨atMost rfl, atMost rfl, atMost rfl⟩,
    ⟨atMostu rfl, atMostu rfl, atMostu rfl⟩, ?_⟩
  simp only [List.forall_mem_cons]
  exact ⟨
    -- `vcmpeq`, `vcmpneq`
    hasCell_fvv, hasCell_fvs, hasCell_fvv, hasCell_fvs,
    -- `vcmplt`, `vcmpltu`
    hasCell_fvv, hasCell_fvs, hasCell_fvs, hasCell_fvv, hasCell_fvs, hasCell_fvs,
    -- `vcmple`, `vcmpleu`
    hasCell_fvv, hasCell_fvs, hasCell_fvs, hasCell_fvv, hasCell_fvs, hasCell_fvs,
    List.forall_mem_nil _⟩

end Sys2Proof.Machine
end

section
/-! The accumulators (R162 to R166, R198): the products that are added to them, and the two copies from
them. -/

namespace Sys2Proof.Machine

/-- A multiply-accumulate adds to every accumulator the products of the active VPs that feed it, modulo
`2^AccW` (R38, R163, R164). -/
theorem completes_of_multiplyAccumulate {i : Instr} {s : State} {signed : Bool} {m : MaskSel}
    {a b : Source} (ha : macAvailable s.cfg = true)
    (h : exec i s = s.multiplyAccumulate signed m a b) :
    completes i s { f := [16, 17], acc := true } fun t =>
      t.acc.length = accCount s.cfg ∧ ∀ k, k < accCount s.cfg →
        (t.accValue k : Int) = (s.accValue k + ∑ j ∈ Finset.range s.cfg.mvl,
          if s.active m j = true ∧ accOf s.cfg j = k then s.macProduct signed a b j else 0) %
            2 ^ s.cfg.accW := by
  refine completes_intro s (h.trans ((multiplyAccumulate_next ..).mpr ⟨ha, rfl⟩)) rfl ?_ ⟨?_, ?_⟩
  · exact unchangedBut_comp (unchangedBut_acc s _) (unchangedBut_flagSideEffect _)
  · simp
  · intro k hk
    rw [accValue_of_acc_eq rfl hk, wrapAcc_cast, sum_feeders]

/-- Settles O11: all four forms are one multiply-accumulate, with the signed or the unsigned product. -/
theorem multiplyAccumulates : Obligations.MultiplyAccumulates := by
  intro s m va vb rs ha sums signed unsigned fr
  have mac {i signed b} (h : exec i s = s.multiplyAccumulate signed m (.vec va) b) :=
    completes_of_multiplyAccumulate ha h
  refine ⟨mac (signed := true) rfl, mac (signed := true) rfl, mac (signed := false) rfl,
    mac (signed := false) rfl, ?_⟩
  have vv {i func} (hf : func < 64) (h : encode .r93 i = some (packVRab .r93 0x3D 0 func m va vb)) :
      hasCell i 0x3D 0 func := hasCell_of h (packVRab_codes (by decide) (by decide) hf m va vb)
  have vs {i func} (hf : func < 64) (h : encode .r93 i = some (packSSa .r93 0x3D 1 func m va rs)) :
      hasCell i 0x3D 1 func := hasCell_of h (packSSa_codes (by decide) (by decide) hf m va rs)
  simp only [List.forall_mem_cons]
  exact ⟨vv (by decide) rfl, vs (by decide) rfl, vv (by decide) rfl, vs (by decide) rfl,
    List.forall_mem_nil _⟩

/-! ### The copies -/

/-- The partial result of a chain modulo `2^W` (R165). -/
theorem chainLow_wrapsTo (s : State) (j : Nat) : wrapsTo s.cfg
    ((∑ k ∈ Finset.range (accCount s.cfg), if accChain s.cfg k = j then (s.accValue k : Int) else 0) %
      2 ^ s.cfg.accW) (s.chainLow j) :=
  chainSum_cast s j ▸ wrapsTo_ofNat s.cfg (s.chainSum j)

/-- Settles O12: the copy writes the low part of every chain's sum. -/
theorem copyFromAccumulators : Obligations.CopyFromAccumulators := by
  intro s vd ha
  refine ⟨completes_intro s (require_of_true _ _ ha) rfl ?_ ⟨?_, rfl⟩,
    hasCell_of rfl (packVRd_codes (by decide) (by decide) (by decide) vd)⟩
  · exact unchangedBut_comp (unchangedBut_copyPartials s vd _) (unchangedBut_flagSideEffect _)
  · exact elementsAfter_copyPartials s (fun _ => rfl) (chainLow_wrapsTo s)

/-- What a copy that zeroes the accumulators writes where every accumulator of the chain has been
written (R166). -/
theorem firstClearing_of_written {s : State} {g : Nat → Elem} {j : Nat}
    (h : ∀ k, k < accCount s.cfg → accChain s.cfg k = j → s.accWritten k = true) :
    s.firstClearing g j = g j := by
  refine if_pos (List.all_eq_true.mpr fun k hk => ?_)
  obtain ⟨hrange, hchain⟩ := List.mem_filter.mp hk
  exact h k (List.mem_range.mp hrange) (beq_iff_eq.mp hchain)

/-- A copy that zeroes the accumulators, of partial results of `W` bits (R166, R198). -/
theorem completes_of_copyAndZero {i : Instr} {s : State} {vd : VReg} {g : Nat → Elem}
    (hg : ∀ j, fits s.cfg (g j))
    (h : exec i s = (s.copyPartials vd (s.firstClearing g)).zeroAccumulators.finish) :
    completes i s { v := [vd], f := [16, 17], c := [0], acc := true } fun t =>
      elementsAfter s t vd (fun j => j < partialCount s.cfg) (fun j e => fits s.cfg e ∧
        ((∀ k, k < accCount s.cfg → accChain s.cfg k = j → s.accWritten k = true) → e = g j)) ∧
      t.creg 0 = some (BitVec.ofNat 32 (partialCount s.cfg)) ∧
      t.acc.length = accCount s.cfg ∧ ∀ k, t.accValue k = 0 := by
  refine completes_intro s h rfl ?_ ⟨?_, rfl, ?_, ?_⟩
  · exact unchangedBut_comp (unchangedBut_comp (unchangedBut_copyPartials s vd _)
      (unchangedBut_acc _ _)) (unchangedBut_flagSideEffect _)
  · exact elementsAfter_copyPartials s (fun _ => rfl) fun j =>
      ⟨fits_firstClearing _ hg j, firstClearing_of_written⟩
  · exact List.length_replicate
  · exact accValue_zeroAccumulators (s.copyPartials vd _)

/-- Settles O13: both copies zero the accumulators; `vxcczacc` checks `FixedPoint` first. -/
theorem copyAndZeroAccumulators : Obligations.CopyAndZeroAccumulators := by
  intro s vd ha written copied fr
  refine ⟨completes_of_copyAndZero (fun _ => fits_elem s.cfg _) (require_of_true _ _ ha), fun hx =>
    completes_of_copyAndZero (fun _ => fits_elem s.cfg _) ?_⟩
  exact (require_of_true _ _ hx).trans (require_of_true _ _ ha)

end Sys2Proof.Machine
end

section
/-! Instructions of a unit that the parameters leave out (R8, R17, R162). -/

namespace Sys2Proof.Machine

/-- R17, R162: no chain, or a VP of 32 bits, is no MAC unit. -/
theorem macAvailable_eq_false {c : Config} (h : c.macl = 0 ∨ c.w = 32) : macAvailable c = false := by
  obtain h | h := h <;> simp [macAvailable, h]

/-- Settles O42: every instruction of the list checks its unit first, a fixed-point one after
`FixedPoint`. -/
theorem absentUnitsRefuse : Obligations.AbsentUnitsRefuse := by
  intro s m vd va vb rs
  have off {i ok k} (hok : ok = false) (h : exec i s = require ok .featureOff k) :
      exec i s = .refused .featureOff := h.trans (require_of_false _ k hok)
  have offx {i ok k} (hx : s.cfg.fixedPoint = true) (hok : ok = false)
      (h : exec i s = s.fixedPoint (require ok .featureOff k)) : exec i s = .refused .featureOff :=
    off hok (h.trans (require_of_true _ _ hx))
  refine ⟨fun hmac => ?_, fun hmac hx => ?_, fun hx hmult => ?_, fun hup => off hup rfl,
    fun hmanip => ?_⟩
  · have absent {i k} := off (i := i) (k := k) (macAvailable_eq_false hmac)
    simp only [List.forall_mem_cons]
    exact ⟨absent rfl, absent rfl, absent rfl, absent rfl, absent rfl, absent rfl, List.forall_mem_nil _⟩
  · have absent {i k} := offx (i := i) (k := k) hx (macAvailable_eq_false hmac)
    simp only [List.forall_mem_cons]
    exact ⟨absent rfl, absent rfl, List.forall_mem_nil _⟩
  · have absent {i k} := offx (i := i) (k := k) hx hmult
    simp only [List.forall_mem_cons]
    exact ⟨absent rfl, absent rfl, absent rfl, absent rfl, absent rfl, absent rfl, absent rfl, absent rfl,
      List.forall_mem_nil _⟩
  · simp only [List.forall_mem_cons]
    exact ⟨off hmanip rfl, off hmanip rfl, List.forall_mem_nil _⟩

end Sys2Proof.Machine
end

section
/-! The logical instructions and the rotation (R170 to R172, R175): the element loop of R14 again, with
an element function that works on the `W` bits of its operands. -/

namespace Sys2Proof.Machine

/-- An element computed bit by bit from the `W` low bits of two containers, put back into a container. -/
theorem bitwise_elem {c : Config} {f : Bool → Bool → Bool} {x y : Elem} {r : BitVec c.w}
    (hr : ∀ j, r.getLsbD j = f ((x.setWidth c.w).getLsbD j) ((y.setWidth c.w).getLsbD j)) :
    fits c (r.setWidth 32) ∧
      ∀ j, j < c.w → (r.setWidth 32).getLsbD j = f (x.getLsbD j) (y.getLsbD j) := by
  refine ⟨fits_elem c r, fun j hj => ?_⟩
  have hj' : j < 32 := hj.trans_le (width_le c)
  simp only [BitVec.getLsbD_setWidth, hr, hj, hj', decide_true, Bool.true_and]

/-- Settles O8: each of the three element functions is its Boolean function at every bit. -/
theorem bitwiseLogic : Obligations.BitwiseLogic := by
  intro s m vd va vb rs bits
  have conj {i a b} (h : exec i s = s.elementwise m vd a b opAnd) : computes i s m vd (bits and a b) :=
    computes_of_elementwise h fun _ => bitwise_elem fun _ => BitVec.getLsbD_and
  have disj {i a b} (h : exec i s = s.elementwise m vd a b opOr) : computes i s m vd (bits or a b) :=
    computes_of_elementwise h fun _ => bitwise_elem fun _ => BitVec.getLsbD_or
  have excl {i a b} (h : exec i s = s.elementwise m vd a b opXor) : computes i s m vd (bits xor a b) :=
    computes_of_elementwise h fun _ => bitwise_elem fun _ => BitVec.getLsbD_xor
  refine ⟨conj rfl, conj rfl, disj rfl, disj rfl, excl rfl, excl rfl, ?_⟩
  simp only [List.forall_mem_cons]
  exact ⟨hasCell_vv, hasCell_vs, hasCell_vv, hasCell_vs, hasCell_vv, hasCell_vs,
    List.forall_mem_nil _⟩

/-- Settles O6: all three forms rotate their first operand, by the second modulo `W`. -/
theorem rotations : Obligations.Rotations := by
  intro s m vd va vb rs rot
  have rotate {i a b} (h : exec i s = s.elementwise m vd a b opRot) : computes i s m vd (rot a b) :=
    computes_of_elementwise h fun _ => opRot_spec s.cfg (fun _ => 0) _ _
  exact ⟨rotate rfl, rotate rfl, rotate rfl⟩

end Sys2Proof.Machine
end

section
/-! The fixed-point instructions (R180 to R197): the element loop of R14 behind the check of
`FixedPoint`, with element functions that saturate, round and draw, and the saturating copy of the
accumulators. -/

namespace Sys2Proof.Machine

/-! ### The check of `FixedPoint` (R180) -/

section
variable {i : Instr} {s : State}

theorem exec_of_fixedPoint_on {k : Result} (hx : s.cfg.fixedPoint = true)
    (h : exec i s = s.fixedPoint k) : exec i s = k :=
  h.trans (require_of_true _ k hx)

/-- A fixed-point instruction that runs the element loop of R14. -/
theorem computes_of_fixedPoint {m : MaskSel} {vd : VReg} {a b : Source} {op : ElemOp}
    {value : Nat → Elem → Prop} (hx : s.cfg.fixedPoint = true)
    (h : exec i s = s.fixedPoint (s.elementwise m vd a b op))
    (hv : ∀ k, value k (s.elemResult op a b k)) : computes i s m vd value :=
  computes_of_elementwise (exec_of_fixedPoint_on hx h) hv

end

/-- Settles O21: every instruction of the family is behind the check of `FixedPoint`, which comes before
any other. -/
theorem fixedPointOffRefuses : Obligations.FixedPointOffRefuses := by
  intro s n m vd va vb rs hx
  have off {i k} (h : exec i s = s.fixedPoint k) : exec i s = .refused .fixedPointNotImplemented :=
    h.trans (require_of_false _ k hx)
  simp only [fixedPointForms, fixedPointElementForms, List.forall_mem_cons]
  exact ⟨
    -- `vxccacc`, `vxcczacc`
    off rfl, off rfl,
    -- `vsadd.vv`, `vssub.vv`, `vsat`, `vsrr`, `vsls`
    off rfl, off rfl, off rfl, off rfl, off rfl,
    -- `vxmulhi.vv`, `vxmullo.vv`, `vsaddu.vv`, `vssubu.vv`
    off rfl, off rfl, off rfl, off rfl,
    -- `vsatu`, `vsrru`, `vslsu`, `vxmulhiu.vv`, `vxmullou.vv`, `vsatsu`
    off rfl, off rfl, off rfl, off rfl, off rfl, off rfl,
    -- `vsadd.vs`, `vssub.vs`, `vxmulhi.vs`, `vxmullo.vs`
    off rfl, off rfl, off rfl, off rfl,
    -- `vsaddu.vs`, `vssubu.vs`, `vxmulhiu.vs`, `vxmullou.vs`
    off rfl, off rfl, off rfl, off rfl,
    -- `vssub.sv`, `vssubu.sv`
    off rfl, off rfl, List.forall_mem_nil _⟩

/-! ### Saturation (R181 to R188) -/

/-- The element that holds a value saturated to `N` bits, signed, where the VP has so many. -/
theorem satSigned_elem (c : Config) {n : Nat} (h : n ≤ c.w) (z : Int) :
    fits c ((BitVec.ofInt c.w (satSigned n z)).setWidth 32) ∧
      signedOf c ((BitVec.ofInt c.w (satSigned n z)).setWidth 32) = nearestSigned n z :=
  ⟨fits_elem c _, signedOf_satSigned c h z⟩

/-- Settles O16: each of the four element functions saturates the exact sum or difference to `W` bits. -/
theorem saturatingSums : Obligations.SaturatingSums := by
  intro s m vd va vb rs hx sgn uns
  have add {i a b} (h : exec i s = s.fixedPoint (s.elementwise m vd a b opSadd)) :
      computes i s m vd (sgn (· + ·) a b) :=
    computes_of_fixedPoint hx h fun _ => satSigned_elem s.cfg le_rfl _
  have addu {i a b} (h : exec i s = s.fixedPoint (s.elementwise m vd a b opSaddu)) :
      computes i s m vd (uns (· + ·) a b) :=
    computes_of_fixedPoint hx h fun _ => toNat_satUnsigned s.cfg le_rfl _
  have sub {i a b} (h : exec i s = s.fixedPoint (s.elementwise m vd a b opSsub)) :
      computes i s m vd (sgn (· - ·) a b) :=
    computes_of_fixedPoint hx h fun _ => satSigned_elem s.cfg le_rfl _
  have subu {i a b} (h : exec i s = s.fixedPoint (s.elementwise m vd a b opSsubu)) :
      computes i s m vd (uns (· - ·) a b) :=
    computes_of_fixedPoint hx h fun _ => toNat_satUnsigned s.cfg le_rfl _
  exact ⟨add rfl, add rfl, addu rfl, addu rfl, sub rfl, sub rfl, sub rfl, subu rfl, subu rfl,
    subu rfl⟩

/-- Settles O17: the check of the width, which comes after that of `FixedPoint`, lets the widths pass
whose saturated values fit in `W` bits. -/
theorem saturateToNarrower : Obligations.SaturateToNarrower := by
  intro s n m vd va hx
  have runs {i p op} [Decidable p] (hp : p) (h : exec i s = s.fixedPoint (require p
      .widthNotAvailable (s.elementwise m vd (.vec va) (.vec va) op))) :
      exec i s = s.elementwise m vd (.vec va) (.vec va) op :=
    (exec_of_fixedPoint_on hx h).trans (require_of_true _ _ (decide_eq_true hp))
  have refuses {i p k} [Decidable p] (hp : ¬ p)
      (h : exec i s = s.fixedPoint (require p .widthNotAvailable k)) :
      exec i s = .refused .widthNotAvailable :=
    (exec_of_fixedPoint_on hx h).trans (require_of_false _ _ (decide_eq_false hp))
  refine ⟨fun hn => ⟨?_, ?_⟩, fun hn => ?_, fun hn => ⟨?_, ?_⟩, fun hn => ?_⟩
  · exact computes_of_elementwise (runs hn rfl) fun _ => satSigned_elem s.cfg hn.le _
  · exact computes_of_elementwise (runs hn rfl) fun _ => toNat_satUnsigned s.cfg hn.le _
  · exact computes_of_elementwise (runs hn rfl) fun _ => toNat_satUnsigned s.cfg hn _
  · exact refuses hn.not_gt rfl
  · exact refuses hn.not_gt rfl
  · exact refuses hn.not_ge rfl

/-! ### Shifts by `vshamt` (R189 to R192) -/

section
variable (c : Config) (d : DrawKind → BitVec c.w) (a b : BitVec c.w) (n : Nat)

theorem opSrr_spec :
    if c.w ≤ n then fits c ((opSrr n c d a b).setWidth 32)
    else ∃ q, isRounded c a.toInt n q ∧ wrapsTo c q ((opSrr n c d a b).setWidth 32) := by
  unfold opSrr
  split_ifs with h
  · exact fits_elem c _
  · exact ⟨_, fxRound_isRounded c _ n, wrapsTo_ofInt c _⟩

theorem opSrru_spec :
    if c.w ≤ n then fits c ((opSrru n c d a b).setWidth 32)
    else ∃ q, isRounded c a.toNat n q ∧ wrapsTo c q ((opSrru n c d a b).setWidth 32) := by
  unfold opSrru
  split_ifs with h
  · exact fits_elem c _
  · exact ⟨_, fxRound_isRounded c _ n, wrapsTo_ofInt c _⟩

theorem opSls_spec :
    if c.w ≤ n then fits c ((opSls n c d a b).setWidth 32)
    else fits c ((opSls n c d a b).setWidth 32) ∧
      signedOf c ((opSls n c d a b).setWidth 32) = nearestSigned c.w (a.toInt * 2 ^ n) := by
  unfold opSls
  split_ifs with h
  · exact fits_elem c _
  · exact satSigned_elem c le_rfl _

theorem opSlsu_spec :
    if c.w ≤ n then fits c ((opSlsu n c d a b).setWidth 32)
    else (((opSlsu n c d a b).setWidth 32 : Elem).toNat : Int) =
      nearestUnsigned c.w (a.toNat * 2 ^ n) := by
  unfold opSlsu
  split_ifs with h
  · exact fits_elem c _
  · exact toNat_satUnsigned c le_rfl _

/-- The rounded product of the fixed-point multiplies, of which the half `f` is taken (R193 to R196). -/
theorem opFxMul_spec {half : (w : Nat) → Int → BitVec w} {f : Int → Int}
    (hf : ∀ q, wrapsTo c (f q) ((half c.w q).setWidth 32)) (p : Int) :
    if 2 * c.w ≤ n then fits c ((opFxMul n half c d p).setWidth 32)
    else ∃ q, isRounded c p n q ∧ wrapsTo c (f q) ((opFxMul n half c d p).setWidth 32) := by
  unfold opFxMul
  split_ifs with h
  · exact fits_elem c _
  · exact ⟨_, fxRound_isRounded c p n, hf _⟩

end

/-- Settles O18: below `W` the four element functions round or saturate the exact shifted value; from
`W` on they draw. -/
theorem roundingAndSaturatingShifts : Obligations.RoundingAndSaturatingShifts := by
  intro s m vd va hx n within
  refine ⟨?_, ?_, ?_, ?_⟩
  · exact computes_of_fixedPoint hx rfl fun _ => opSrr_spec s.cfg _ _ _ n
  · exact computes_of_fixedPoint hx rfl fun _ => opSrru_spec s.cfg _ _ _ n
  · exact computes_of_fixedPoint hx rfl fun _ => opSls_spec s.cfg _ _ _ n
  · exact computes_of_fixedPoint hx rfl fun _ => opSlsu_spec s.cfg _ _ _ n

/-! ### Products (R193 to R196) -/

/-- Settles O19: the rounded product, of which one half or the other is written, behind the checks of
`FixedPoint` and `Vmult`. -/
theorem fixedPointProducts : Obligations.FixedPointProducts := by
  intro s m vd va vb rs hx hm n half sgn uns
  have checked {i r} (h : exec i s = s.fixedPoint (require s.cfg.vmult .featureOff r)) :
      exec i s = r := (exec_of_fixedPoint_on hx h).trans (require_of_true _ _ hm)
  have upper {i b} (h : exec i s = s.elementwise m vd (.vec va) b (opXmulhi n)) :
      computes i s m vd (sgn (· / 2 ^ s.cfg.w) b) :=
    computes_of_elementwise h fun _ => opFxMul_spec s.cfg _ n (upperHalf_wrapsTo s.cfg) _
  have upperu {i b} (h : exec i s = s.elementwise m vd (.vec va) b (opXmulhiu n)) :
      computes i s m vd (uns (· / 2 ^ s.cfg.w) b) :=
    computes_of_elementwise h fun _ => opFxMul_spec s.cfg _ n (upperHalf_wrapsTo s.cfg) _
  have lower {i b} (h : exec i s = s.elementwise m vd (.vec va) b (opXmullo n)) :
      computes i s m vd (sgn id b) :=
    computes_of_elementwise h fun _ => opFxMul_spec s.cfg _ n (lowerHalf_wrapsTo s.cfg) _
  have loweru {i b} (h : exec i s = s.elementwise m vd (.vec va) b (opXmullou n)) :
      computes i s m vd (uns id b) :=
    computes_of_elementwise h fun _ => opFxMul_spec s.cfg _ n (lowerHalf_wrapsTo s.cfg) _
  exact ⟨upper (checked rfl), upper (checked rfl), upperu (checked rfl), upperu (checked rfl),
    lower (checked rfl), lower (checked rfl), loweru (checked rfl), loweru (checked rfl)⟩

/-! ### The saturating copy (R197) -/

/-- The sum of a chain, read as a signed `AccW`-bit value. -/
theorem chainSum_toInt (s : State) (j : Nat) : (BitVec.ofNat s.cfg.accW (s.chainSum j)).toInt =
    Int.bmod (∑ k ∈ Finset.range (accCount s.cfg),
      if accChain s.cfg k = j then (s.accValue k : Int) else 0) (2 ^ s.cfg.accW) := by
  have hpow : (2 : Int) ^ s.cfg.accW = (2 ^ s.cfg.accW : Nat) := (Nat.cast_pow 2 _).symm
  rw [BitVec.toInt_ofNat', chainSum_cast, hpow, Int.emod_bmod]

theorem chainSaturated_spec (s : State) (j : Nat) : fits s.cfg (s.chainSaturated j) ∧
    signedOf s.cfg (s.chainSaturated j) = nearestSigned s.cfg.w
      (Int.bmod (∑ k ∈ Finset.range (accCount s.cfg),
        if accChain s.cfg k = j then (s.accValue k : Int) else 0) (2 ^ s.cfg.accW)) :=
  chainSum_toInt s j ▸ satSigned_elem s.cfg le_rfl _

/-- Settles O20: the copy writes the saturated sum of every chain. -/
theorem copyAndSaturate : Obligations.CopyAndSaturate := by
  intro s vd hx ha
  have runs : exec (.vxccacc vd) s = (s.copyPartials vd s.chainSaturated).finish :=
    (exec_of_fixedPoint_on hx rfl).trans (require_of_true _ _ ha)
  refine completes_intro s runs rfl ?_ ⟨?_, rfl⟩
  · exact unchangedBut_comp (unchangedBut_copyPartials s vd _) (unchangedBut_flagSideEffect _)
  · exact elementsAfter_copyPartials s (fun _ => rfl) (chainSaturated_spec s)

end Sys2Proof.Machine
end

section
/-! The main-memory instructions that complete (R210 to R222): every form is the shared load or the shared
store at its addresses, with or without the auto-increment. -/

namespace Sys2Proof.Machine

variable {s : State} {i : Instr} {wd : Width} {m : MaskSel} {vr : VReg} {vb : VBase} {vi : VInc}

/-! ### Loads -/

/-- A load form with the auto-increment of R212. -/
theorem loads_of_incrementing_load {signed : Bool} {addr : Nat → Int}
    (he : exec i s = s.load wd signed m vr vb addr (·.autoIncrement vb vi))
    (hl : legalAccesses s wd m vb addr) :
    loads i s wd signed m vr [baseCreg vb] addr fun t => baseIncremented s t vb vi :=
  loads_of_load (·.autoIncrement vb vi) hl he (fun _ => rfl) (fun _ => rfl)
    (fun u => unchangedBut_autoIncrement u vb vi)
    fun g => baseIncremented_autoIncrement (u := s.setV vr g) vb vi rfl rfl rfl

/-- A load form that leaves the base register alone. -/
theorem loads_of_plain_load {signed : Bool} {addr : Nat → Int}
    (he : exec i s = s.load wd signed m vr vb addr id) (hl : legalAccesses s wd m vb addr) :
    loads i s wd signed m vr [] addr fun _ => True :=
  loads_of_load id hl he (fun _ => rfl) (fun _ => rfl) unchangedBut_refl fun _ => trivial

/-- Settles O22: five incrementing loads at the unit-stride addresses. -/
theorem unitStrideLoads : Obligations.UnitStrideLoads := by
  intro s m vd vb vi run
  have incr {i wd signed}
      (h : exec i s = s.load wd signed m vd vb (s.unitAddr vb wd) (·.autoIncrement vb vi)) :
      run i wd signed := loads_of_incrementing_load h
  exact ⟨incr rfl, incr rfl, incr rfl, incr rfl, incr rfl⟩

/-- Settles O23: five incrementing loads at the constant-stride addresses. -/
theorem constantStrideLoads : Obligations.ConstantStrideLoads := by
  intro s m vd vb vs vi run
  have incr {i wd signed}
      (h : exec i s = s.load wd signed m vd vb (s.strideAddr vb vs wd) (·.autoIncrement vb vi)) :
      run i wd signed := loads_of_incrementing_load h
  exact ⟨incr rfl, incr rfl, incr rfl, incr rfl, incr rfl⟩

/-- Settles O24: five loads at the indexed addresses, which change no control register. -/
theorem indexedLoads : Obligations.IndexedLoads := by
  intro s m vd vo vb run
  have plain {i wd signed} (h : exec i s = s.load wd signed m vd vb (s.indexAddr vb vo) id) :
      run i wd signed := loads_of_plain_load h
  exact ⟨plain rfl, plain rfl, plain rfl, plain rfl, plain rfl⟩

/-! ### Stores -/

section
variable {addr : Nat → Int} {stored : Nat → Nat → Prop}

/-- R71: after stores in element order the highest active VP of an address stands there. -/
theorem lastStoring_of_rising {k j : Nat} {pre post : List Nat}
    (hsplit : s.activeVPs m = pre ++ j :: post) (hj : addr j = addr k)
    (hpost : ∀ x ∈ post, addr x ≠ addr k) : lastStoring s m addr k j :=
  ⟨hj, fun l hl hact => rising_last (p := fun x => addr x = addr k) (activeVPs_rising s m) hsplit hpost l
    ((mem_activeVPs s m l).mpr ⟨hl, hact⟩)⟩

/-- A store form in element order, with the auto-increment of R212. -/
theorem stores_of_incrementing_store
    (he : exec i s = s.store wd m vr vb addr (s.activeVPs m) (·.autoIncrement vb vi))
    (hl : legalAccesses s wd m vb addr) (hc : avoidsCode s wd.bytes m addr)
    (hlast : ∀ k j, lastStoring s m addr k j → stored k j) :
    stores i s wd m vr [baseCreg vb] addr stored fun t => baseIncremented s t vb vi :=
  stores_of_store (·.autoIncrement vb vi) hl hc (List.Perm.refl _) he (fun _ => rfl) (fun _ => rfl)
    (fun u => unchangedBut_autoIncrement u vb vi)
    (fun k j _ _ hsplit hj hpost _ _ => hlast k j (lastStoring_of_rising hsplit hj hpost))
    fun mem => baseIncremented_autoIncrement (u := { s with mem := mem }) vb vi rfl rfl rfl

/-- A store form in element order that leaves the base register alone. -/
theorem stores_of_ordered_store (he : exec i s = s.store wd m vr vb addr (s.activeVPs m) id)
    (hl : legalAccesses s wd m vb addr) (hc : avoidsCode s wd.bytes m addr) :
    stores i s wd m vr [] addr (lastStoring s m addr) fun _ => True :=
  stores_of_store id hl hc (List.Perm.refl _) he (fun _ => rfl) (fun _ => rfl) unchangedBut_refl
    (fun _ _ _ _ hsplit hj hpost _ _ => lastStoring_of_rising hsplit hj hpost) fun _ => trivial

/-- R71, R221: a store form in a drawn order, after which one of the VPs of an address stands there. -/
theorem stores_of_unordered_store
    (he : exec i s = s.store wd m vr vb addr (s.anyOrder addr (s.activeVPs m)) (·.useDraws))
    (hl : legalAccesses s wd m vb addr) (hc : avoidsCode s wd.bytes m addr) :
    stores i s wd m vr [] addr (fun k j => addr j = addr k) fun _ => True :=
  stores_of_store (·.useDraws) hl hc (anyOrder_perm s addr _) he (fun _ => rfl) (fun _ => rfl)
    unchangedBut_useDraws (fun _ _ _ _ _ hj _ _ _ => hj) fun _ => trivial

end

/-- No two VPs meet at unit stride (R210). -/
theorem unitAddr_inj {j k : Nat} : s.unitAddr vb wd j = s.unitAddr vb wd k ↔ j = k := by
  have hpos : (wd.bytes : Int) ≠ 0 := by cases wd <;> decide
  rw [State.unitAddr, State.unitAddr, Int.add_right_inj, Int.mul_eq_mul_right_iff hpos, Int.natCast_inj]

/-- Settles O25: the last VP at an address is the only one, since unit-stride addresses differ. -/
theorem unitStrideStores : Obligations.UnitStrideStores := by
  intro s m va vb vi run
  have incr {i wd}
      (h : exec i s = s.store wd m va vb (s.unitAddr vb wd) (s.activeVPs m) (·.autoIncrement vb vi)) :
      run i wd := fun hl hc =>
    stores_of_incrementing_store h hl hc fun _ _ hlast => unitAddr_inj.mp hlast.1
  exact ⟨incr rfl, incr rfl, incr rfl⟩

/-- Settles O26: the stores are in element order, so the highest VP at an address is the last. -/
theorem constantStrideStores : Obligations.ConstantStrideStores := by
  intro s m va vb vs vi run
  have incr {i wd} (h : exec i s =
      s.store wd m va vb (s.strideAddr vb vs wd) (s.activeVPs m) (·.autoIncrement vb vi)) : run i wd :=
    fun hl hc => stores_of_incrementing_store h hl hc fun _ _ hlast => hlast
  exact ⟨incr rfl, incr rfl, incr rfl⟩

/-- Settles O27: `vstx` stores in element order, `vstxu` in some order of the active VPs. -/
theorem indexedStores : Obligations.IndexedStores := by
  intro s m va vo vb run last any
  have ordered {i wd} (h : exec i s = s.store wd m va vb (s.indexAddr vb vo) (s.activeVPs m) id) :
      run i wd last := stores_of_ordered_store h
  have unordered {i wd} (h : exec i s = s.store wd m va vb (s.indexAddr vb vo)
      (s.anyOrder (s.indexAddr vb vo) (s.activeVPs m)) (·.useDraws)) : run i wd any :=
    stores_of_unordered_store h
  exact ⟨ordered rfl, ordered rfl, ordered rfl, unordered rfl, unordered rfl, unordered rfl⟩

end Sys2Proof.Machine
end

section
/-! The faults of step 3 of R211: once the base passes, the first access that is not legal is reported. -/

namespace Sys2Proof.Machine

variable {s : State} {vb : VBase}

/-- R211: past an aligned base, the fault of the accesses is the one reported. -/
theorem accessFaults_of_aligned_base {al n : Nat} {vps : List Nat} {addr : Nat → Int} {e : Fault}
    (hb : (s.base vb : Int) % al = 0)
    (he : (vps.findSome? fun i => accessFault s.cfg (addr i) n) = some e) :
    s.accessFaults vb al n vps addr = some e := by
  rw [State.accessFaults, alignFault, if_pos hb, Option.none_or, he]

/-- The first hit of a search through `0 .. n-1`. -/
theorem range_findSome?_of_first {β : Type} {g : Nat → Option β} {n k : Nat} {b : β} (hk : k < n)
    (hg : g k = some b) (hn : ∀ j, j < k → g j = none) : (List.range n).findSome? g = some b := by
  induction n with
  | zero => exact absurd hk (Nat.not_lt_zero k)
  | succ n ih =>
    rw [List.range_succ, List.findSome?_append]
    obtain hlt | rfl := Nat.lt_succ_iff_lt_or_eq.mp hk
    · rw [ih hlt, Option.some_or]
    · have hnone : (List.range k).findSome? g = none :=
        List.findSome?_eq_none_iff.mpr fun j hj => hn j (List.mem_range.mp hj)
      rw [hnone, Option.none_or, List.findSome?_singleton, hg]

/-- `vfld` and `vfst`, past their refusals, report the fault that their checks find. -/
theorem flagTransfers_fault {fd : FReg} {vi : VInc} {e : Fault} (hr : reservedFlag fd = false)
    (hf : s.accessFaults vb (s.cfg.w / 8) 1 (List.range s.flagBytes) (s.flagAddr vb) = some e) :
    ∀ i ∈ [Instr.vfld fd vb vi, .vfst fd vb vi],
      (storesToMemory i = true → flagBytesAvoidCode s vb) → exec i s = .fault e := by
  simp only [List.forall_mem_cons]
  exact ⟨fun _ => vfld_fault hr hf, fun hc => vfst_fault hr (hc rfl) hf, List.forall_mem_nil _⟩

/-- Settles O29: the search for a fault stops at the first access that is not legal, and the checks of
that access say why. -/
theorem firstIllegalAccessFaults : Obligations.FirstIllegalAccessFaults := by
  intro s m vr vo vb vs vi k
  refine ⟨?_, fun fd hr hb hk hlegal i hi hc => ?_⟩
  · intro p hp n a hw hb hc hk ha hlegal
    have reports {e} (he : accessFault s.cfg a n = some e) : exec p.1 s = .fault e :=
      memoryForms_fault hp hw hc <| accessFaults_of_aligned_base hb <|
        activeVPs_findSome?_of_first s m hk ha he fun j hj hact =>
          (accessFault_none _ _ _).mpr (hlegal j hj hact)
    obtain ⟨misaligned, outside, unmapped⟩ := accessFault_reason s.cfg a n
    exact ⟨fun h => reports (misaligned h), fun h h' => reports (outside h h'),
      fun h h0 h1 hj => reports (unmapped h h0 h1 hj)⟩
  · have reports {e} (he : accessFault s.cfg (s.flagAddr vb k) 1 = some e) : exec i s = .fault e :=
      flagTransfers_fault hr (accessFaults_of_aligned_base hb <|
        range_findSome?_of_first hk he fun j hj => (accessFault_none _ _ _).mpr (hlegal j hj)) i hi hc
    obtain ⟨-, outside, unmapped⟩ := accessFault_reason s.cfg (s.flagAddr vb k) 1
    have haligned : s.flagAddr vb k % (1 : Nat) = 0 := Int.emod_one _
    refine ⟨fun h => reports (outside haligned (.inr ?_)), fun h hp => reports
      (unmapped haligned (Int.natCast_nonneg (s.base vb + k)) ?_ ⟨0, Nat.one_pos, hp⟩)⟩
    · rw [State.flagAddr]; omega
    · rw [State.flagAddr]; omega

end Sys2Proof.Machine
end

section
/-! The flag registers in memory (R225, R226): element `i` is bit `i mod 8` of byte `i / 8`. -/

namespace Sys2Proof.Machine

theorem unlessFault_of_none {f : Option Fault} (k : Result) (h : f = none) : unlessFault f k = k := by
  subst h
  rfl

section
variable {s : State} {fd : FReg} {vb : VBase}

theorem flagAddr_toNat (s : State) (vb : VBase) (j : Nat) : (s.flagAddr vb j).toNat = s.base vb + j := by
  rw [State.flagAddr, ← Int.natCast_add, Int.toNat_natCast]

theorem accessFaults_of_legalFlagAccess (hl : legalFlagAccess s vb) :
    s.accessFaults vb (s.cfg.w / 8) 1 (List.range s.flagBytes) (s.flagAddr vb) = none :=
  (accessFaults_none ..).mpr ⟨hl.1, fun j hj => hl.2 j (List.mem_range.mp hj)⟩

/-- Settles O31: the padding ends with the last loaded byte, beyond which the bits are as before. -/
theorem flagLoad : Obligations.FlagLoad := by
  intro s fd vb vi hr hl
  refine completes_intro s ((requireFlags_singleton _ hr).trans
    (unlessFault_of_none _ (accessFaults_of_legalFlagAccess hl))) rfl ?_ ⟨?_, ?_⟩
  · exact unchangedBut_comp (unchangedBut_comp (unchangedBut_setF s fd _)
      (unchangedBut_autoIncrement _ vb vi)) (unchangedBut_useDraws _)
  · refine flagsAfter_setF s (u := s) rfl (fun _ => rfl) (fun k _ hk => ?_) fun k _ hk => ?_
    · rw [if_pos hk, flagAddr_toNat]
    · rw [if_neg hk.1.not_gt, if_neg hk.2.not_gt]
  · exact baseIncremented_autoIncrement (u := s.setF fd _) vb vi rfl rfl rfl

/-- Main memory after the byte stores of `vfst`. -/
def State.flagStores (s : State) (fd : FReg) (vb : VBase) : Memory :=
  (List.range s.flagBytes).foldl
    (fun mem j => mem.write (s.flagAddr vb j).toNat (s.flagStoreByte fd j)) s.mem

theorem read_flagStores (s : State) (fd : FReg) (vb : VBase) (a : Nat) :
    (s.flagStores fd vb).read a =
      if s.base vb ≤ a ∧ a < s.base vb + s.flagBytes then s.flagStoreByte fd (a - s.base vb)
      else s.mem.read a := by
  simp only [State.flagStores, flagAddr_toNat]
  exact read_foldl_write (s.base vb) (s.flagStoreByte fd) s.flagBytes s.mem a

/-- The `K` bytes that `vfst` stores hold every flag below `VL` (R226). -/
theorem flagStores_holds_flag {i : Nat} (hi : i < s.vlen) :
    ((s.flagStores fd vb).read (s.base vb + i / 8)).getLsbD (i % 8) = s.felem fd i := by
  have hbyte : i / 8 < s.flagBytes := by have := vlen_le_flagBytes s; omega
  calc ((s.flagStores fd vb).read (s.base vb + i / 8)).getLsbD (i % 8)
    _ = (s.flagStoreByte fd (i / 8)).getLsbD (i % 8) := by
      rw [read_flagStores, if_pos (by omega), Nat.add_sub_cancel_left]
    _ = s.flagStoreBit fd (8 * (i / 8) + i % 8) :=
      getLsbD_flagStoreByte s fd _ _ (Nat.mod_lt i (by decide))
    _ = s.felem fd i := by rw [Nat.div_add_mod, State.flagStoreBit, if_pos hi]

/-- Settles O32: the `K` bytes hold every flag below `VL`, and no other byte is written. -/
theorem flagStore : Obligations.FlagStore := by
  intro s fd vb vi hr hl hc
  refine completes_intro s ((requireFlags_singleton _ hr).trans <|
    (avoidingCode_eq s 1 _ fun j hj => hc j (List.mem_range.mp hj)).trans <|
    unlessFault_of_none _ (accessFaults_of_legalFlagAccess hl)) rfl ?_
    ⟨fun _ hi => flagStores_holds_flag hi, fun a ha => ?_, ?_⟩
  · exact unchangedBut_comp (unchangedBut_comp (unchangedBut_mem s _)
      (unchangedBut_autoIncrement _ vb vi)) (unchangedBut_useDraws _)
  · exact (read_flagStores s fd vb a).trans (if_neg ha)
  · exact baseIncremented_autoIncrement (u := { s with mem := s.flagStores fd vb }) vb vi rfl rfl rfl

end

end Sys2Proof.Machine
end

section
/-! The local memory (R41, R223, R224, R230). -/

namespace Sys2Proof.Machine

variable {s : State} {m : MaskSel} {vd va : VReg} {b : Source}

/-! ### The checks -/

theorem localRangeFault_of_lt {i : Nat} (h : s.localAddr va i < localWords s.cfg) :
    s.localRangeFault va i = none := if_pos h

theorem localRangeFault_of_le {i : Nat} (h : localWords s.cfg ≤ s.localAddr va i) :
    s.localRangeFault va i = some (.localMemRange i (s.localAddr va i)) := if_neg h.not_gt

theorem localLoadFault_of_written {i : Nat} (h : s.localAddr va i < localWords s.cfg)
    (hr : (s.localRead i (s.localAddr va i)).isSome = true) : s.localLoadFault va i = none := by
  rw [State.localLoadFault, localRangeFault_of_lt h, Option.none_or, if_pos hr]

theorem localLoadFault_of_le {i : Nat} (h : localWords s.cfg ≤ s.localAddr va i) :
    s.localLoadFault va i = some (.localMemRange i (s.localAddr va i)) := by
  rw [State.localLoadFault, localRangeFault_of_le h, Option.some_or]

theorem localLoadFault_of_unwritten {i : Nat} (h : s.localAddr va i < localWords s.cfg)
    (hr : s.localRead i (s.localAddr va i) = none) :
    s.localLoadFault va i = some (.readBeforeWrite i (s.localAddr va i)) := by
  rw [State.localLoadFault, localRangeFault_of_lt h, Option.none_or, hr]
  rfl

/-- R223: where there is local memory, `vldl` is the check of its words and then the load. -/
theorem exec_vldlVV (hn : s.cfg.lMemN ≠ 0) : exec (.vldlVV m vd va) s =
    unlessFault ((s.activeVPs m).findSome? (s.localLoadFault va)) (.next (s.setV vd fun i =>
      if s.active m i then (s.localRead i (s.localAddr va i)).getD 0 else s.velem vd i).advance) :=
  require_of_true _ _ (bne_iff_ne.mpr hn)

/-- R230: past the refusals, the fault that the range checks of a local store find. -/
theorem localStore_fault {e : Fault} (hn : s.cfg.lMemN ≠ 0)
    (hs : s.cfg.lMemShare = true → s.vlen ≤ s.cfg.nLane)
    (he : (s.activeVPs m).findSome? (s.localRangeFault va) = some e) :
    s.localStore m va b = .fault e := by
  have hshared : (!(s.cfg.lMemShare && s.cfg.nLane < s.vlen)) = true := by
    simpa [imp_iff_not_or] using hs
  rw [State.localStore, require_of_true _ _ (bne_iff_ne.mpr hn), require_of_true _ _ hshared,
    unlessFault_of_some _ he]

theorem localStore_refused_shared (hn : s.cfg.lMemN ≠ 0) (hs : s.cfg.lMemShare = true)
    (hv : s.cfg.nLane < s.vlen) : s.localStore m va b = .refused .sharedLocalWrite := by
  rw [State.localStore, require_of_true _ _ (bne_iff_ne.mpr hn), require_of_false _ _ (by simp [hs, hv])]

/-! ### Loads -/

/-- Settles O33: the checks pass, so that every active VP reads a word that has been written. -/
theorem localLoads : Obligations.LocalLoads := by
  intro s m vd va hn hw
  have hchecks : (s.activeVPs m).findSome? (s.localLoadFault va) = none :=
    List.findSome?_eq_none_iff.mpr fun k hk =>
      let ⟨hlt, hact⟩ := (mem_activeVPs s m k).mp hk
      let ⟨hrange, hwritten⟩ := hw k hlt hact
      localLoadFault_of_written hrange hwritten
  refine completes_intro s ((exec_vldlVV hn).trans (unlessFault_of_none _ hchecks)) rfl
    (unchangedBut_setV s vd _) ?_
  refine elementsAfter_setV s (fun _ => rfl) (fun k hlt hact => ?_) fun k _ hact => if_neg hact
  obtain ⟨e, he⟩ := Option.isSome_iff_exists.mp (hw k hlt hact).2
  rw [if_pos hact, he]
  exact he

/-! ### Stores -/

/-- R41, R230: VPs that may store have blocks of their own, also where lanes share a block. -/
theorem localBlock_inj {c : Config} {n j k : Nat} (hs : c.lMemShare = true → n ≤ c.nLane) (hj : j < n)
    (hk : k < n) : localBlock c j = localBlock c k ↔ j = k := by
  unfold localBlock laneOf
  split_ifs with h
  · rw [Nat.mod_eq_of_lt (hj.trans_le (hs h)), Nat.mod_eq_of_lt (hk.trans_le (hs h))]
  · exact Iff.rfl

/-- The key of the word that VP `i` addresses. -/
def State.wordKey (s : State) (va : VReg) (i : Nat) : Nat :=
  localKey (localBlock s.cfg i) (s.localAddr va i)

/-- A word after a local store: the data of the last VP that stores there, or as before (R224). -/
theorem localRead_localStores (s : State) (va : VReg) (b : Source) (vps : List Nat) (j a : Nat) :
    State.localRead { s with lmem := s.localStores va b vps } j a =
      ((vps.filter fun i => s.wordKey va i == localKey (localBlock s.cfg j) a).getLast?.map
        fun i => truncElem s.cfg (s.source b i)).or (s.localRead j a) :=
  cellGet_foldl_cellPut (s.wordKey va) _ _ vps s.lmem

/-- A local store by VPs with keys of their own puts the data of each at its own word (R224). -/
theorem localRead_localStores_self {vps : List Nat} {k : Nat} (hk : k ∈ vps)
    (hinj : ∀ i ∈ vps, s.wordKey va i = s.wordKey va k → i = k) :
    State.localRead { s with lmem := s.localStores va b vps } k (s.localAddr va k) =
      some (truncElem s.cfg (s.source b k)) := by
  have hmem : k ∈ vps.filter fun i => s.wordKey va i == s.wordKey va k :=
    List.mem_filter.mpr ⟨hk, beq_self_eq_true _⟩
  have hlast : (vps.filter fun i => s.wordKey va i == s.wordKey va k).getLast? = some k := by
    rw [List.getLast?_eq_some_getLast (List.ne_nil_of_mem hmem)]
    obtain ⟨hin, hkey⟩ := List.mem_filter.mp (List.getLast_mem (List.ne_nil_of_mem hmem))
    exact congrArg some (hinj _ hin (beq_iff_eq.mp hkey))
  exact (localRead_localStores s va b vps k _).trans (by rw [← State.wordKey, hlast]; rfl)

/-- A word that no VP of a local store addresses is as before (R224). -/
theorem localRead_localStores_other {vps : List Nat} {j a : Nat}
    (h : ∀ i ∈ vps, s.wordKey va i ≠ localKey (localBlock s.cfg j) a) :
    State.localRead { s with lmem := s.localStores va b vps } j a = s.localRead j a := by
  have hnone : (vps.filter fun i => s.wordKey va i == localKey (localBlock s.cfg j) a) = [] :=
    List.filter_eq_nil_iff.mpr fun i hi => by simpa using h i hi
  rw [localRead_localStores, hnone]
  rfl

/-- R11, R15: a source, cut to `W` bits, as an unsigned number. -/
theorem truncElem_source_toNat (s : State) (b : Source) (k : Nat) :
    (truncElem s.cfg (s.source b k)).toNat = s.unsignedAt b k := elem_toNat s.cfg _

/-- Settles O34: no two VPs that store share a word, so each finds its own data there. -/
theorem localStores : Obligations.LocalStores := by
  intro s m va vb rs hn hs hrange stored
  have hkey {i j a} (ha : a < 2 ^ 32) : s.wordKey va i = localKey (localBlock s.cfg j) a ↔
      localBlock s.cfg i = localBlock s.cfg j ∧ s.localAddr va i = a :=
    localKey_inj (localAddr_lt s va i) ha
  have store {i b} (h : exec i s = s.localStore m va b) :
      completes i s { lmem := true } (stored b) := by
    have runs := h.trans ((localStore_next ..).mpr ⟨hn, hs, fun k hk =>
      let ⟨hlt, hact⟩ := (mem_activeVPs s m k).mp hk
      hrange k hlt hact, rfl⟩)
    refine completes_intro s runs rfl (unchangedBut_lmem s _) ⟨fun k hlt hact => ?_, fun j a ha hne => ?_⟩
    · have hk := (mem_activeVPs s m k).mpr ⟨hlt, hact⟩
      refine ⟨_, localRead_localStores_self (s := s) hk fun i hi he => ?_, truncElem_source_toNat s b k⟩
      have hiact := ((mem_activeVPs s m i).mp hi).2
      exact (localBlock_inj hs (active_lt hiact) (active_lt hact)).mp
        ((hkey (localAddr_lt s va k)).mp he).1
    · exact localRead_localStores_other (s := s) fun i hi he =>
        let ⟨hlt, hact⟩ := (mem_activeVPs s m i).mp hi
        hne i hlt hact ((hkey ha).mp he)
  exact ⟨store rfl, store rfl⟩

/-! ### Stops -/

/-- Settles O35: the refusals come first, then the first active VP whose check fails is reported. -/
theorem localMemoryStops : Obligations.LocalMemoryStops := by
  intro s m vd va vb rs k
  refine ⟨fun hn => ?_, fun hn hs hv => ?_,
    fun hn hk ha hout hbefore => ⟨fun hwritten => ?_, fun hs => ?_⟩,
    fun hn hk ha hin hunwritten hbefore => ?_⟩
  · have off {i r} (h : exec i s = require (s.cfg.lMemN != 0) .featureOff r) :
        exec i s = .refused .featureOff := h.trans (require_of_false _ _ (bne_eq_false_iff_eq.mpr hn))
    simp only [List.forall_mem_cons]
    exact ⟨off rfl, off rfl, off rfl, List.forall_mem_nil _⟩
  · have shared {i b} (h : exec i s = s.localStore m va b) : exec i s = .refused .sharedLocalWrite :=
      h.trans (localStore_refused_shared hn hs hv)
    simp only [List.forall_mem_cons]
    exact ⟨shared rfl, shared rfl, List.forall_mem_nil _⟩
  · exact (exec_vldlVV hn).trans <| unlessFault_of_some _ <|
      activeVPs_findSome?_of_first s m hk ha (localLoadFault_of_le hout) fun j hj hact =>
        localLoadFault_of_written (hbefore j hj hact) (hwritten j hj hact)
  · have fault {i b} (h : exec i s = s.localStore m va b) :
        exec i s = .fault (.localMemRange k (s.localAddr va k)) :=
      h.trans <| localStore_fault hn hs <|
        activeVPs_findSome?_of_first s m hk ha (localRangeFault_of_le hout) fun j hj hact =>
          localRangeFault_of_lt (hbefore j hj hact)
    simp only [List.forall_mem_cons]
    exact ⟨fault rfl, fault rfl, List.forall_mem_nil _⟩
  · exact (exec_vldlVV hn).trans <| unlessFault_of_some _ <|
      activeVPs_findSome?_of_first s m hk ha (localLoadFault_of_unwritten hin hunwritten) fun j hj hact =>
        localLoadFault_of_written (hbefore j hj hact).1 (hbefore j hj hact).2

end Sys2Proof.Machine
end

section
/-! Vector processing (R241 to R249, R261): merges, moves between registers at the element that `vindex`
names, the two moves along the unmasked elements, and the rotation by one element. -/

namespace Sys2Proof.Machine

/-! ### Merges -/

/-- R241: the merge writes every element below `VL`. -/
theorem completes_of_merge {i : Instr} {s : State} {m : MaskSel} {vd : VReg} {a b : Source}
    (h : exec i s = s.merge m vd a b) :
    completes i s { v := [vd], f := [16, 17] } fun t =>
      elementsAfter s t vd (fun k => k < s.vlen) fun k e =>
        e = if s.felem (maskFlag m) k = true then s.source b k else s.source a k :=
  completes_setV_finish h (fun _ _ hk => if_pos hk) fun _ _ hk => if_neg hk

/-- Settles O36: all three forms are one merge. -/
theorem merges : Obligations.Merges := by
  intro s m vd va vb rs merged
  exact ⟨completes_of_merge rfl, completes_of_merge rfl, completes_of_merge rfl⟩

/-! ### Moves of `VL` elements -/

section
variable {s : State} {vd va : VReg} (k : Result)

/-- R242, R243: the move happens where it fits behind `vindex`. -/
theorem transfer_of_fits (hm : s.cfg.vmanip = true) (hne : vd ≠ va)
    (hfit : s.elementIndex + s.vlen ≤ s.cfg.mvl) : s.transfer vd va k = k := by
  rw [State.transfer, require_of_true _ _ hm, require_of_true _ _ (bne_iff_ne.mpr hne),
    require_of_true _ _ (decide_eq_true hfit)]

theorem transfer_refused_same (hm : s.cfg.vmanip = true) (heq : vd = va) :
    s.transfer vd va k = .refused .sameRegister := by
  rw [State.transfer, require_of_true _ _ hm, require_of_false _ _ (bne_eq_false_iff_eq.mpr heq)]

theorem transfer_refused_range (hm : s.cfg.vmanip = true) (hne : vd ≠ va)
    (hout : s.cfg.mvl < s.elementIndex + s.vlen) :
    s.transfer vd va k = .refused .insertExtractOutOfRange := by
  rw [State.transfer, require_of_true _ _ hm, require_of_true _ _ (bne_iff_ne.mpr hne),
    require_of_false _ _ (decide_eq_false hout.not_ge)]

end

/-- Settles O37: both instructions are one write behind the checks that they share. -/
theorem vectorInsertAndExtract : Obligations.VectorInsertAndExtract := by
  intro s vd va hm start
  refine ⟨fun hne hfit => ⟨?_, ?_⟩, ?_⟩
  · exact completes_setV_finish (transfer_of_fits _ hm hne hfit) (fun _ _ hk => if_pos hk)
      fun _ _ hk => if_neg hk
  · exact completes_setV_finish (transfer_of_fits _ hm hne hfit) (fun _ _ hk => if_pos hk)
      fun _ _ hk => if_neg hk
  · have refusals {i k} (h : exec i s = s.transfer vd va k) :
        (vd = va → exec i s = .refused .sameRegister) ∧
        (vd ≠ va → s.cfg.mvl < start + s.vlen → exec i s = .refused .insertExtractOutOfRange) :=
      ⟨fun heq => h.trans (transfer_refused_same k hm heq),
        fun hne hout => h.trans (transfer_refused_range k hm hne hout)⟩
    simp only [List.forall_mem_cons]
    exact ⟨refusals rfl, refusals rfl, List.forall_mem_nil _⟩

/-! ### Moves of one element -/

/-- R11: the low `W` bits of a scalar operand, as a number. -/
theorem truncElem_toNat (c : Config) (a : BitVec 32) : (truncElem c a).toNat = a.toNat % 2 ^ c.w := by
  rw [truncElem, elem_toNat, BitVec.toNat_setWidth]

/-- R31, R245, R246: an instruction that writes a scalar register and then ends as an arithmetic one. -/
theorem completes_setX_finish {i : Instr} {s : State} {rs : SReg} {a : Word}
    (h : exec i s = (s.setX rs a).finish) :
    completes i s { x := [rs], f := [16, 17] } fun t => t.xreg rs = if rs = 0 then 0 else a := by
  refine completes_intro s h rfl ?_ ?_
  · exact unchangedBut_comp (unchangedBut_setX s rs a) (unchangedBut_flagSideEffect _)
  · rw [State.advance_xreg, State.flagSideEffect_xreg, State.xreg_setX]
    by_cases h0 : rs = 0 <;> simp [h0]

/-- What follows from the postcondition of an instruction is a postcondition too. -/
theorem completes.mono {i : Instr} {s : State} {fr : Frame} {post post' : State → Prop}
    (h : completes i s fr post) (hp : ∀ t, post t → post' t) : completes i s fr post' :=
  let ⟨t, hexec, hpc, hframe, hpost⟩ := h
  ⟨t, hexec, hpc, hframe, hp t hpost⟩

/-- Settles O38: a write of the one element or bit, or of the scalar register that takes the extended
element. -/
theorem scalarInsertAndExtract : Obligations.ScalarInsertAndExtract := by
  intro s vd va fd rs at'
  refine ⟨?_, ?_, ?_, fun hf => ?_⟩
  · refine completes_setV_finish (i := .vinsVS vd rs) rfl (fun k _ hk => ?_) fun k _ hk => if_neg hk
    exact (congrArg BitVec.toNat (if_pos hk)).trans (truncElem_toNat s.cfg _)
  · refine (completes_setX_finish rfl).mono fun t ht => ?_
    rw [ht, apply_ite BitVec.toInt, BitVec.toInt_signExtend_of_le (width_le s.cfg)]
    rfl
  · refine (completes_setX_finish rfl).mono fun t ht => ?_
    rw [ht, apply_ite BitVec.toNat, elem_toNat]
    rfl
  · refine completes_intro s (requireFlags_singleton _ hf) rfl (unchangedBut_setF s fd _) ?_
    exact flagsAfter_setF s (u := s) rfl (fun _ => rfl) (fun _ _ hk => if_pos hk) fun _ _ hk => if_neg hk

/-! ### Moves along the unmasked elements -/

section
variable {s : State} {m : MaskSel} {vd va : VReg}

/-- R247: the places up to the number of active VPs take their elements, in order. -/
theorem completes_vcomp (hne : vd ≠ va) :
    completes (.vcomp m vd va) s { v := [vd], f := [16, 17] } fun t =>
      elementsAfter s t vd (fun k => k < unmaskedBelow s m s.cfg.mvl) fun k e =>
        ∃ i, i < s.cfg.mvl ∧ s.active m i = true ∧ unmaskedBelow s m i = k ∧ e = s.velem va i := by
  refine completes_setV_finish (require_of_true _ _ (bne_iff_ne.mpr hne)) (fun k _ hk => ?_)
    fun k _ hk => ?_
  · rw [← length_activeVPs] at hk
    have hget := List.getElem?_eq_getElem hk
    obtain ⟨hlt, hact, hplace⟩ := getElem?_active s m s.cfg.mvl k _ hget
    exact ⟨_, hlt, hact, hplace, by rw [hget]⟩
  · rw [← length_activeVPs, not_lt] at hk
    rw [List.getElem?_eq_none hk]

/-- R248: an active VP takes the element whose place is the number of active VPs below it. -/
theorem completes_vexpand (hne : vd ≠ va) :
    completes (.vexpand m vd va) s { v := [vd], f := [16, 17] } fun t =>
      elementsAfter s t vd (fun k => s.active m k = true) fun k e =>
        e = s.velem va (unmaskedBelow s m k) := by
  refine completes_setV_finish (require_of_true _ _ (bne_iff_ne.mpr hne)) (fun k _ hk => ?_)
    fun k _ hk => if_neg hk
  rw [if_pos hk, activeBelow_eq]

/-- Settles O39: the check of the two registers, and behind it the two moves. -/
theorem compressAndExpand : Obligations.CompressAndExpand := by
  intro s m vd va
  refine ⟨fun hne => ⟨completes_vcomp hne, completes_vexpand hne⟩, fun heq => ?_⟩
  have same {i k} (h : exec i s = require (vd != va) .sameRegister k) :
      exec i s = .refused .sameRegister :=
    h.trans (require_of_false _ _ (bne_eq_false_iff_eq.mpr heq))
  simp only [List.forall_mem_cons]
  exact ⟨same rfl, same rfl, List.forall_mem_nil _⟩

theorem ne_of_vcomp_next {t : State} (h : exec (.vcomp m vd va) s = .next t) : vd ≠ va :=
  bne_iff_ne.mp ((require_next t).mp h).1

theorem ne_of_vexpand_next {t : State} (h : exec (.vexpand m vd va) s = .next t) : vd ≠ va :=
  bne_iff_ne.mp ((require_next t).mp h).1

/-- The places of `vcomp` and `vexpand` count the active VPs. -/
theorem unmaskedBelow_eq_count (s : State) (m : MaskSel) (i : Nat) :
    unmaskedBelow s m i = Nat.count (fun k => s.active m k = true) i :=
  (Nat.count_eq_card_filter_range _ i).symm

theorem unmaskedBelow_le (s : State) (m : MaskSel) (i : Nat) : unmaskedBelow s m i ≤ i :=
  unmaskedBelow_eq_count s m i ▸ Nat.count_le _

/-- An active VP has fewer active VPs below it than any VP above it. -/
theorem unmaskedBelow_lt {i j : Nat} (hi : s.active m i = true) (hij : i < j) :
    unmaskedBelow s m i < unmaskedBelow s m j := by
  rw [unmaskedBelow_eq_count, unmaskedBelow_eq_count]
  exact Nat.count_strict_mono hi hij

/-- Two active VPs have places of their own. -/
theorem unmaskedBelow_inj {i j : Nat} (hi : s.active m i = true) (hj : s.active m j = true)
    (h : unmaskedBelow s m i = unmaskedBelow s m j) : i = j := by
  rw [unmaskedBelow_eq_count, unmaskedBelow_eq_count] at h
  exact Nat.count_injective hi hj h

/-- The state that an instruction answers meets what is known of its completion. -/
theorem completes.of_next {i : Instr} {t : State} {fr : Frame} {post : State → Prop}
    (h : completes i s fr post) (ht : exec i s = .next t) : unchangedBut fr s t ∧ post t := by
  obtain ⟨t', ht', -, hframe, hpost⟩ := h
  obtain rfl : t = t' := next_inj.mp (ht.symm.trans ht')
  exact ⟨hframe, hpost⟩

/-- `VL` is a control register, so that a frame without `$vc0` keeps it (R33). -/
theorem vlen_eq_of_unchangedBut {t : State} {fr : Frame} (h : unchangedBut fr s t) (hc : 0 ∉ fr.c) :
    t.vlen = s.vlen := by
  obtain ⟨-, -, -, -, hcreg, -⟩ := h
  have hvl : some t.vl = some s.vl := hcreg 0 hc
  exact congrArg BitVec.toNat (Option.some.inj hvl)

/-- A frame without `VL` and the mask register keeps the active VPs (R14). -/
theorem active_eq_of_unchangedBut {t : State} {fr : Frame} (h : unchangedBut fr s t) (hc : 0 ∉ fr.c)
    (hf : maskFlag m ∉ fr.f) : t.active m = s.active m := by
  have hvl := vlen_eq_of_unchangedBut h hc
  obtain ⟨-, -, hfelem, -⟩ := h
  funext k
  rw [State.active, State.active, hvl, hfelem _ hf]

/-- The side effect of R27 is not on a mask register. -/
theorem maskFlag_notMem_sideEffect (m : MaskSel) : maskFlag m ∉ [(16 : FReg), 17] := by
  cases m <;> decide

/-- R247, R248: after `vcomp` the place that `vexpand` reads for an active VP holds that VP's element. -/
theorem velem_vcomp_of_active {t : State} (hd : vd ≠ 0) (h : exec (.vcomp m vd va) s = .next t) {k : Nat}
    (hk : k < s.cfg.mvl) (hact : s.active m k = true) :
    t.velem vd (unmaskedBelow s m k) = s.velem va k := by
  obtain ⟨-, hafter⟩ := (completes_vcomp (ne_of_vcomp_next h)).of_next h
  obtain ⟨-, hwritten, -⟩ := hafter _ ((unmaskedBelow_le s m k).trans_lt hk)
  obtain ⟨i, -, hi, hplace, helem⟩ := hwritten hd (unmaskedBelow_lt hact hk)
  rw [helem, unmaskedBelow_inj hi hact hplace]

/-- Settles O40: `vcomp` keeps the mask and `VL`, so that `vexpand` finds every element in the place where
`vcomp` put it. -/
theorem expandUndoesCompress : Obligations.ExpandUndoesCompress := by
  intro s t u m vd va ve hd he hcomp hexpand k hk
  have hne : ve ≠ vd := ne_of_vexpand_next hexpand
  obtain ⟨hframe, -⟩ := (completes_vcomp (ne_of_vcomp_next hcomp)).of_next hcomp
  obtain ⟨-, hafter⟩ := (completes_vexpand hne).of_next hexpand
  have hactive : t.active m = s.active m :=
    active_eq_of_unchangedBut hframe List.not_mem_nil (maskFlag_notMem_sideEffect m)
  have hplace : unmaskedBelow t m = unmaskedBelow s m := by
    funext i
    rw [unmaskedBelow, unmaskedBelow, hactive]
  obtain ⟨⟨hcfg, -⟩, hvelem, -⟩ := hframe
  obtain ⟨-, hwritten, hkept⟩ := hafter k (hcfg ▸ hk)
  rw [hactive] at hwritten hkept
  split_ifs with hact
  · rw [hwritten he hact, hplace, velem_vcomp_of_active hd hcomp hk hact]
  · rw [hkept he hact, hvelem ve (List.mem_singleton.not.mpr hne) k]

end

/-! ### Rotation by one element -/

section
variable {s : State}

/-- R249: the place after `k`, the first after the last. -/
theorem upshift_place {n k : Nat} (hk : k < n) : (if k + 1 < n then k + 1 else 0) = (k + 1) % n := by
  split_ifs with h
  · exact (Nat.mod_eq_of_lt h).symm
  · rw [show k + 1 = n by omega, Nat.mod_self]

theorem completes_vupshift (vd va : VReg) (h : s.cfg.vupshift = true) :
    completes (.vupshift vd va) s { v := [vd], f := [16, 17] } fun t =>
      elementsAfter s t vd (fun _ => True) fun k e => e = s.velem va ((k + 1) % s.cfg.mvl) :=
  completes_setV_finish (require_of_true _ _ h) (fun _ hk _ => by rw [upshift_place hk])
    fun _ _ hk => absurd trivial hk

/-- An application of `vupshift` to one register, which may be `vr0`. -/
theorem velem_vupshift {t : State} {vd : VReg} (h : exec (.vupshift vd vd) s = .next t) :
    t.cfg = s.cfg ∧ ∀ k, k < s.cfg.mvl → t.velem vd k = s.velem vd ((k + 1) % s.cfg.mvl) := by
  obtain ⟨⟨⟨hcfg, -⟩, -⟩, hafter⟩ :=
    (completes_vupshift vd vd ((require_next t).mp h).1).of_next h
  refine ⟨hcfg, fun k hk => ?_⟩
  obtain ⟨hzero, hwritten, -⟩ := hafter k hk
  by_cases h0 : vd = 0
  · rw [hzero h0, h0, State.velem_zero]
  · exact hwritten h0 trivial

/-- `n` applications of `vupshift` move every element `n` places down, around the end. -/
theorem velem_vupshift_iterate {run : Nat → State} {vd : VReg} {n : Nat}
    (hrun : ∀ j, j < n → exec (.vupshift vd vd) (run j) = .next (run (j + 1))) :
    (run n).cfg = (run 0).cfg ∧ ∀ k, k < (run 0).cfg.mvl →
      (run n).velem vd k = (run 0).velem vd ((k + n) % (run 0).cfg.mvl) := by
  induction n with
  | zero => exact ⟨rfl, fun k hk => by rw [Nat.add_zero, Nat.mod_eq_of_lt hk]⟩
  | succ n ih =>
    obtain ⟨hcfg, hmoved⟩ := ih fun j hj => hrun j (hj.trans n.lt_succ_self)
    obtain ⟨hcfg', hmoved'⟩ := velem_vupshift (hrun n n.lt_succ_self)
    rw [hcfg] at hcfg' hmoved'
    refine ⟨hcfg', fun k hk => ?_⟩
    calc (run (n + 1)).velem vd k
      _ = (run n).velem vd ((k + 1) % (run 0).cfg.mvl) := hmoved' k hk
      _ = (run 0).velem vd (((k + 1) % (run 0).cfg.mvl + n) % (run 0).cfg.mvl) :=
        hmoved _ (Nat.mod_lt _ (Nat.zero_lt_of_lt hk))
      _ = (run 0).velem vd ((k + (n + 1)) % (run 0).cfg.mvl) := by
        rw [Nat.mod_add_mod, Nat.add_right_comm, Nat.add_assoc]

/-- Settles O41: `MVL` applications move every element once around. -/
theorem upshifts : Obligations.Upshifts := by
  intro s vd va h
  refine ⟨completes_vupshift vd va h, fun run hstart hrun k hk => ?_⟩
  subst hstart
  obtain ⟨-, hmoved⟩ := velem_vupshift_iterate hrun
  rw [hmoved k hk, Nat.add_mod_right, Nat.mod_eq_of_lt hk]

end

end Sys2Proof.Machine
end

section
/-! The instructions that have a word (R100, R125, R268): whatever the field layout is, a word decodes to
a well-formed instruction only. -/

namespace Sys2Proof

variable {c : Config} {w func : Nat}

/-- An instruction that the decoder answers is well formed. -/
def answersWellFormed (c : Config) (d : Decoded) : Prop := ∀ i, d = .instr i → i.wellFormed c = true

theorem answersWellFormed_reserved : answersWellFormed c .reserved := nofun

theorem answersWellFormed_scalar : answersWellFormed c .scalar := nofun

theorem answersWellFormed_accept {l : FieldLayout} {fields : List BitField} {j : Instr}
    (hj : j.wellFormed c = true) : answersWellFormed c (accept l fields w j) := by
  unfold accept
  split_ifs
  · intro i h
    obtain rfl := Decoded.instr.inj h
    exact hj
  · exact answersWellFormed_reserved

/-! One lemma for each table of R103 to R107: the last row answers that the word is reserved, every other
row accepts the instruction it stands for. -/

theorem decodeVectorRegister_wellFormed : answersWellFormed c (decodeVectorRegister c w func) := by
  unfold decodeVectorRegister
  split
  case h_40 => exact answersWellFormed_reserved
  all_goals exact answersWellFormed_accept rfl

theorem decodeScalarVector_wellFormed : answersWellFormed c (decodeScalarVector c w func) := by
  unfold decodeScalarVector
  split
  case h_48 => exact answersWellFormed_reserved
  all_goals exact answersWellFormed_accept rfl

/-- The width in a saturate instruction is the one that the decoder takes from the instance (R181). -/
theorem decodeFixedPoint_wellFormed : answersWellFormed c (decodeFixedPoint c w func) := by
  unfold decodeFixedPoint
  split
  case h_28 => exact answersWellFormed_reserved
  case h_3 | h_10 | h_16 => exact answersWellFormed_accept (beq_self_eq_true c.satWidth)
  all_goals exact answersWellFormed_accept rfl

theorem decodeFlagMisc_wellFormed : answersWellFormed c (decodeFlagMisc c w func) := by
  unfold decodeFlagMisc
  split
  case h_19 => exact answersWellFormed_reserved
  all_goals exact answersWellFormed_accept rfl

theorem decodeMemory_wellFormed : answersWellFormed c (decodeMemory c w func) := by
  unfold decodeMemory
  split
  case h_32 => exact answersWellFormed_reserved
  all_goals exact answersWellFormed_accept rfl

theorem decodeMemoryScalar_wellFormed : answersWellFormed c (decodeMemoryScalar c w func) := by
  unfold decodeMemoryScalar
  split
  case h_2 => exact answersWellFormed_reserved
  case h_1 => exact answersWellFormed_accept rfl

/-- R125: under every field layout, the instruction that a word decodes to is well formed. -/
theorem decodeWord_wellFormed (c : Config) (w : Word) : answersWellFormed c (decodeWord c w) := by
  unfold decodeWord decodeNat
  split
  · exact decodeVectorRegister_wellFormed
  · exact decodeScalarVector_wellFormed
  · exact decodeFixedPoint_wellFormed
  · exact decodeFlagMisc_wellFormed
  · exact decodeMemory_wellFormed
  · exact decodeMemoryScalar_wellFormed
  · exact answersWellFormed_scalar

end Sys2Proof
end

section
/-! Flag processing (R260 to R275): the operations on the bits below `VL`, the searches and the count, and
the scans up to the first set bit. -/

namespace Sys2Proof.Machine

variable {i : Instr} {s : State} {fd fa : FReg}

/-! ### Codes of opcode 0x3E, OPX 1 (R106) -/

section
variable {func : Nat}

/-- A flag form of two flag sources. -/
theorem hasCell_fff {fb : FReg} (hf : func < 64 := by decide)
    (h : encode .r93 i = some (packVRfff .r93 0x3E 1 func fd fa fb) := by rfl) :
    hasCell i 0x3E 1 func :=
  hasCell_of h (packVRfff_codes (by decide) (by decide) hf fd fa fb)

/-- A flag form of a flag source and a scalar source. -/
theorem hasCell_ffs {rs : SReg} (hf : func < 64 := by decide)
    (h : encode .r93 i = some (packSSff .r93 0x3E 1 func fd fa rs) := by rfl) :
    hasCell i 0x3E 1 func :=
  hasCell_of h (packSSff_codes (by decide) (by decide) hf fd fa rs)

/-- A flag form of one flag source. -/
theorem hasCell_ff (hf : func < 64 := by decide)
    (h : encode .r93 i = some (packVRff .r93 0x3E 1 func fd fa) := by rfl) :
    hasCell i 0x3E 1 func :=
  hasCell_of h (packVRff_codes (by decide) (by decide) hf fd fa)

/-- A flag form without sources. -/
theorem hasCell_f (hf : func < 64 := by decide)
    (h : encode .r93 i = some (packVRf .r93 0x3E 1 func fd) := by rfl) :
    hasCell i 0x3E 1 func :=
  hasCell_of h (packVRf_codes (by decide) (by decide) hf fd)

/-- A search of a flag register. -/
theorem hasCell_sf {rs : SReg} (hf : func < 64 := by decide)
    (h : encode .r93 i = some (packSDf .r93 0x3E 1 func rs fa) := by rfl) :
    hasCell i 0x3E 1 func :=
  hasCell_of h (packSDf_codes (by decide) (by decide) hf rs fa)

end

/-! ### Operations on the bits below `VL` (R262 to R267) -/

/-- An instruction that runs the flag loop writes the bits below `VL` and keeps the others. -/
theorem completes_of_flagLoop {named : List FReg} {g : Nat → Bool}
    (hf : ∀ f ∈ fd :: named, reservedFlag f = false) (h : exec i s = s.flagLoop fd named g) :
    completes i s { f := [fd] } fun t =>
      flagsAfter s t fd (fun k => k < s.vlen) (fun k => s.vlen ≤ k) fun k b => b = g k := by
  refine completes_intro s (h.trans ((flagLoop_next ..).mpr ⟨hf, rfl⟩)) rfl (unchangedBut_setF s fd _) ?_
  exact flagsAfter_setF s (u := s) rfl (fun _ => rfl) (fun _ _ hk => if_pos hk)
    fun _ _ hk => if_neg hk.not_gt

/-- Settles O43: every form is one flag loop; the registers it names are the destination, the first
source, and the second where that is a flag register. -/
theorem flagLogic : Obligations.FlagLogic := by
  intro s fd fa fb rs hd ha writes bit
  have scalarForm {i op} (h : exec i s = s.flagLogical fd fa (.scalar rs) op) :
      writes i fun k => op (s.felem fa k) bit :=
    completes_of_flagLoop (by simp [hd, ha, FlagSource.flags]) h
  refine ⟨fun hb => ?_, scalarForm rfl, scalarForm rfl, scalarForm rfl,
    scalarForm (op := fun a b => !(a || b)) rfl, ?_⟩
  · have flagForm {i op} (h : exec i s = s.flagLogical fd fa (.flag fb) op) :
        writes i fun k => op (s.felem fa k) (s.felem fb k) :=
      completes_of_flagLoop (by simp [hd, ha, hb, FlagSource.flags]) h
    exact ⟨flagForm rfl, flagForm rfl, flagForm rfl, flagForm (op := fun a b => !(a || b)) rfl⟩
  · simp only [List.forall_mem_cons]
    exact ⟨hasCell_fff, hasCell_ffs, hasCell_fff, hasCell_ffs, hasCell_fff, hasCell_ffs, hasCell_fff,
      hasCell_ffs, List.forall_mem_nil _⟩

/-- Settles O44: both are flag loops that name the destination alone. -/
theorem flagConstants : Obligations.FlagConstants := by
  intro s fd hd writes
  have constant {i value} (h : exec i s = s.flagLoop fd [] fun _ => value) : writes i value :=
    completes_of_flagLoop (by simp [hd]) h
  exact ⟨constant rfl, constant rfl, hasCell_f, hasCell_f⟩

/-! ### Searches and the count (R268 to R270, R274) -/

/-- A search whose answer is at most `VL`: the answer fits in the scalar register. -/
theorem completes_of_flagSearch {rs : SReg} {n : Nat} (hf : reservedFlag fa = false)
    (hn : n ≤ s.vlen) (h : exec i s = s.flagSearch rs fa n) :
    completes i s { x := [rs] } fun t => (t.xreg rs).toNat = if rs = 0 then 0 else n := by
  refine completes_intro s (h.trans ((flagSearch_next ..).mpr ⟨hf, rfl⟩)) rfl
    (unchangedBut_setX s rs _) ?_
  have hword : n < 2 ^ 32 := hn.trans_lt s.vl.isLt
  rw [State.advance_xreg, State.xreg_setX]
  by_cases h0 : rs = 0
  · simp [h0]
  · rw [if_pos ⟨h0, rfl⟩, if_neg h0, BitVec.toNat_ofNat, Nat.mod_eq_of_lt hword]

theorem firstSet_le_vlen (s : State) (f : FReg) : s.firstSet f ≤ s.vlen := by
  obtain ⟨-, ⟨hlt, -⟩ | heq⟩ := firstSet_isFirstSet s f
  · exact hlt.le
  · exact heq.le

theorem lastSet_le_vlen (s : State) (f : FReg) : s.lastSet f ≤ s.vlen := by
  obtain ⟨hlt, -⟩ | ⟨heq, -⟩ := lastSet_isLastSet s f
  · exact hlt.le
  · exact heq.le

theorem length_setBits_le_vlen (s : State) (f : FReg) : (s.setBits f).length ≤ s.vlen :=
  (List.length_filter_le ..).trans_eq List.length_range

/-- Settles O45: each search answers with the place it looks for. -/
theorem flagSearches : Obligations.FlagSearches := by
  intro s rs fa hf finds
  have search {i n place} (hn : n ≤ s.vlen) (hplace : place n)
      (h : exec i s = s.flagSearch rs fa n) : finds i place :=
    (completes_of_flagSearch hf hn h).mono fun _ ht =>
      ⟨n, hplace, fun h0 => ht.trans (if_pos h0), fun h0 => ht.trans (if_neg h0)⟩
  exact ⟨search (firstSet_le_vlen s fa) (firstSet_isFirstSet s fa) rfl,
    search (lastSet_le_vlen s fa) (lastSet_isLastSet s fa) rfl, hasCell_sf, hasCell_sf⟩

/-- Settles O46: `vfpop` is not well formed in any instance, so no word decodes to it; what it answers is
the number of the set bits. -/
theorem populationCount : Obligations.PopulationCount := by
  intro s rs fa
  refine ⟨fun c w hd => ?_, fun hf => ?_⟩
  · have hwf : (Instr.vfpop rs fa).wellFormed c = true := decodeWord_wellFormed c w _ hd
    exact Bool.false_ne_true hwf
  · rw [← length_setBits]
    exact completes_of_flagSearch hf (length_setBits_le_vlen s fa) rfl

/-! ### Scans (R271 to R273, R275) -/

/-- A scan writes the bits below `VL` by their place with respect to the first set bit of the source. -/
theorem completes_of_flagScan {g : Nat → Nat → Bool} {value : Nat → Prop}
    (hd : reservedFlag fd = false) (ha : reservedFlag fa = false) (h : exec i s = s.flagScan fd fa g)
    (hv : ∀ k, g (s.firstSet fa) k = true ↔ value k) :
    completes i s { f := [fd] } fun t =>
      flagsAfter s t fd (fun k => k < s.vlen) (fun _ => False) fun k b => (b = true ↔ value k) := by
  refine completes_intro s (h.trans ((flagScan_next ..).mpr ⟨⟨hd, ha⟩, rfl⟩)) rfl ?_ ?_
  · exact unchangedBut_comp (unchangedBut_setF s fd _) (unchangedBut_useDraws _)
  · refine flagsAfter_setF s (u := s) rfl (fun _ => rfl) (fun k _ hk => ?_) fun _ _ => False.elim
    rw [if_pos hk]
    exact hv k

/-- Settles O47: the place that the scan starts from is the first set bit, and each form compares the
element with it. -/
theorem flagScans : Obligations.FlagScans := by
  intro s fd fa hd ha sets
  have scan {i} {value : Nat → Nat → Prop} [∀ p k, Decidable (value p k)]
      (h : exec i s = s.flagScan fd fa fun p k => decide (value p k)) : sets i value :=
    ⟨s.firstSet fa, firstSet_isFirstSet s fa,
      completes_of_flagScan hd ha h fun _ => decide_eq_true_iff⟩
  exact ⟨scan rfl, scan rfl, scan rfl, hasCell_ff, hasCell_ff, hasCell_ff⟩

end Sys2Proof.Machine
end

section
/-! The control register moves (R280, R281): the classes of control register numbers, what `vmcts` reads
at each of them, and the refusals of `vmstc` in the order of the rule. -/

namespace Sys2Proof.Machine

/-! ### Control register numbers (R34, R37) -/

section
variable {vc : CReg}

theorem reservedCreg_iff : reservedCreg vc = true ↔ 4 ≤ vc.val ∧ vc.val ≤ 27 := by
  simp only [reservedCreg, Bool.and_eq_true, decide_eq_true_eq]

theorem staticCreg_iff : staticCreg vc = true ↔ vc.val = 1 ∨ (28 ≤ vc.val ∧ vc.val ≤ 31) := by
  simp only [staticCreg, Bool.or_eq_true, beq_iff_eq, Bool.and_eq_true, decide_eq_true_eq]

/-- R34: the static control registers are among the defined ones (R37). -/
theorem reservedCreg_of_static (h : staticCreg vc = true) : reservedCreg vc = false := by
  have hs := staticCreg_iff.mp h
  rw [Bool.eq_false_iff, Ne, reservedCreg_iff]
  omega

end

/-! ### What the registers read as (R32, R36) -/

section
variable (s : State) {vc : CReg}

theorem State.xreg_setX_self (r : SReg) (a : Word) : (s.setX r a).xreg r = if r = 0 then 0 else a := by
  by_cases h0 : r = 0
  · subst h0
    rfl
  · rw [State.xreg_setX, if_pos ⟨h0, rfl⟩, if_neg h0]

theorem State.creg_of_vstride (k : VStride) (h : vc.val = 32 + k.val) :
    s.creg vc = some (s.vstride.get k) := by
  rw [State.creg_vstride s vc (by omega) (by omega)]
  exact congrArg (fun j => some (s.vstride.get j)) (Fin.ext (Nat.sub_eq_of_eq_add' h))

theorem State.creg_of_vinc (k : VInc) (h : vc.val = 40 + k.val) :
    s.creg vc = some (s.vinc.get k) := by
  rw [State.creg_vinc s vc (by omega) (by omega)]
  exact congrArg (fun j => some (s.vinc.get j)) (Fin.ext (Nat.sub_eq_of_eq_add' h))

theorem State.creg_of_vbase (k : VBase) (h : vc.val = 48 + k.val) :
    s.creg vc = some (s.vbase.get k) := by
  rw [State.creg_vbase s vc (by omega)]
  exact congrArg (fun j => some (s.vbase.get j)) (Fin.ext (Nat.sub_eq_of_eq_add' h))

end

/-! ### `vmstc` -/

section
variable {s : State} {vc : CReg} {rs : SReg}

theorem vmstc_refused_reserved (hr : reservedCreg vc = true) :
    exec (.vmstc vc rs) s = .refused .reservedControlRegister :=
  require_of_false _ _ (by simp [hr])

/-- The check that follows the one for the numbers that are not defined. -/
theorem vmstc_refused_static (hs : staticCreg vc = true) :
    exec (.vmstc vc rs) s = .refused .staticControlRegister :=
  (require_of_true _ _ (by simp [reservedCreg_of_static hs])).trans
    (require_of_false _ _ (by simp [hs]))

/-- Past the two checks of the number, `vmstc` has only the bound of `VL` to check (R33). -/
theorem exec_vmstc_of_writable (hr : reservedCreg vc = false) (hs : staticCreg vc = false) :
    exec (.vmstc vc rs) s =
      require (!(vc.val == 0 && s.cfg.mvl < (s.xreg rs).toNat)) .vlOutOfRange
        (.next (s.setCreg vc (s.xreg rs)).advance) :=
  (require_of_true _ _ (by simp [hr])).trans (require_of_true _ _ (by simp [hs]))

theorem vmstc_refused_vl (h : s.cfg.mvl < (s.xreg rs).toNat) :
    exec (.vmstc 0 rs) s = .refused .vlOutOfRange :=
  (exec_vmstc_of_writable rfl rfl).trans (require_of_false _ _ (by simp [h]))

theorem completes_vmstc (hr : reservedCreg vc = false) (hs : staticCreg vc = false)
    (hvl : ¬ (vc = 0 ∧ s.cfg.mvl < (s.xreg rs).toNat)) :
    completes (.vmstc vc rs) s { c := [vc] } fun t => t.creg vc = some (s.xreg rs) := by
  have hlegal : (!(vc.val == 0 && s.cfg.mvl < (s.xreg rs).toNat)) = true := by
    simpa [imp_iff_not_or] using hvl
  refine completes_intro s ((exec_vmstc_of_writable hr hs).trans (require_of_true _ _ hlegal)) rfl
    (unchangedBut_setCreg s vc _) ?_
  rw [State.advance_creg]
  exact State.creg_setCreg_self s hr hs _

end

/-- Settles O49: the three refusals in the order of R280, and the write where none of them applies. -/
theorem controlWrites : Obligations.ControlWrites := by
  intro s vc rs reserved static tooLong
  refine ⟨fun hr hs hvl => completes_vmstc ?_ ?_ hvl,
    fun hr => vmstc_refused_reserved (reservedCreg_iff.mpr hr),
    fun hs => vmstc_refused_static (staticCreg_iff.mpr hs), ?_⟩
  · exact Bool.eq_false_iff.mpr (mt reservedCreg_iff.mp hr)
  · exact Bool.eq_false_iff.mpr (mt staticCreg_iff.mp hs)
  · rintro ⟨rfl, hvl⟩
    exact vmstc_refused_vl hvl

/-! ### `vmcts` -/

section
variable {s : State} {vc : CReg} {rs : SReg}

theorem vmcts_refused (h : s.creg vc = none) :
    exec (.vmcts rs vc) s = .refused .reservedControlRegister := by
  show execVmcts rs vc s = _
  simp only [execVmcts, h]

theorem exec_vmcts_of_creg {a : Word} (h : s.creg vc = some a) :
    exec (.vmcts rs vc) s = .next (s.setX rs a).advance := by
  show execVmcts rs vc s = _
  simp only [execVmcts, h]

theorem completes_vmcts {a : Word} (h : s.creg vc = some a) :
    completes (.vmcts rs vc) s { x := [rs] } fun t => t.xreg rs = if rs = 0 then 0 else a :=
  completes_intro s (exec_vmcts_of_creg h) rfl (unchangedBut_setX s rs a) (s.xreg_setX_self rs a)

end

/-- Settles O50: `vmcts` copies what the control register reads as, number by number. -/
theorem controlReads : Obligations.ControlReads := by
  intro s vc rs reads
  have numbered {n : CReg} {a : Word} (h : s.creg n = some a) (hn : vc = n) : reads a :=
    completes_vmcts (hn ▸ h)
  exact ⟨fun hr => vmcts_refused (s.creg_reserved (reservedCreg_iff.mpr hr)),
    -- the registers `$vc0` to `$vc3`
    numbered s.creg_vl, numbered rfl, numbered s.creg_vindex, numbered s.creg_vshamt,
    -- the static registers `$vc28` to `$vc31`
    numbered rfl, numbered rfl, numbered rfl, numbered rfl,
    -- `vstride`, `vinc` and `vbase`
    fun k hk => completes_vmcts (s.creg_of_vstride k hk),
    fun k hk => completes_vmcts (s.creg_of_vinc k hk),
    fun k hk => completes_vmcts (s.creg_of_vbase k hk)⟩

end Sys2Proof.Machine
end
